-- ==== Sys2Proof/Word.lean ====
section
/-! DEFINITION. The words of the window and the two widths of counter that masters see. -/
namespace Sys2Proof

/-- A word of a port's window (R143: 16-bit words). -/
abbrev Word := BitVec 16

/-- A 32-bit quantity: a slot counter, a timestamp (R4, R74). It occupies two words, low half first (R153). -/
abbrev DWord := BitVec 32

/-- The low half of a 32-bit quantity (R153). -/
def DWord.low (d : DWord) : Word := d.extractLsb' 0 16

/-- The high half of a 32-bit quantity (R153). -/
def DWord.high (d : DWord) : Word := d.extractLsb' 16 16

/-- A channel number 0-31 (00_scope.md, "Channels"), as the bits that filter elements mask (R124). -/
abbrev Channel := BitVec 5

/-- The global number of a request slot, 0-23 (00_scope.md, "Request slots"). -/
abbrev SlotId := Fin 24

end Sys2Proof
end

