-- ==== Sys2Proof/Syntax.lean ====
section
/-! DEFINITION. The commands of the SA340: one constructor for each row of spec/opcode_table.json, in the table's order. -/
namespace Sys2Proof

/-- The master ports (00_scope.md, "Ports"). -/
inductive Port
  | a | b | c
  deriving DecidableEq, Repr

/-- One of a port's two receive queues (R130). -/
inductive QueueId
  | q0 | q1
  deriving DecidableEq, Repr

/-- The holder of a sample record whose first word a master reads (R137, R140): a position of a receive queue, or a
latest-value slot. -/
inductive RecordHolder
  | position (q : QueueId) (index : Fin 64)
  | latestSlot (n : Fin 16)
  deriving DecidableEq, Repr

/-- When the Request Table takes the reports of completed sweeps that wait for it, among them that of the readout at a START: in
the same command, or as an event of its own that comes later, so that a grant or any other event may come before it (R62:
"either may come first"; R46, R84; notes/assumptions/4.md). -/
inductive ReportTaking
  | atOnce | later
  deriving DecidableEq, Repr

/-- What a CONVERTER_DONE brings: `raw`, the result that the converter's buffer then holds (R57), and when the Request Table
takes the report of a sweep that a FLUSH started by the end completes (notes/assumptions/34.md). -/
structure ConversionEnd where
  raw : Word
  taking : ReportTaking
  deriving DecidableEq, Repr

/-- The commands. An operand of a master's command that stands in the parameter words P0-P3 is no operand here: it is
read from the state, as R145 says. -/
inductive Instr
  /-- FRAME_HEADER (R143): the first word of a frame of port `p`. -/
  | frameHeader (p : Port) (header : Word)
  /-- FRAME_END (R143): nCS of port `p` goes high. -/
  | frameEnd (p : Port)
  /-- WRITE_WORD (R144): a data word reaches a parameter word, a read-only word or an unassigned word. -/
  | writeWord (p : Port) (value : Word)
  /-- SLOT_FIELD_WRITE (R3): a data word reaches a writable word of a slot. -/
  | slotFieldWrite (p : Port) (value : Word)
  /-- CONFIGURATION_WRITE (R144): a data word reaches a configuration word. -/
  | configurationWrite (p : Port) (value : Word)
  /-- EVENT_FLAG_WRITE (R151): a data word reaches an event flag word. -/
  | eventFlagWrite (p : Port) (value : Word)
  /-- EVENT_ENABLE_WRITE (R152): a data word reaches an event enable word. -/
  | eventEnableWrite (p : Port) (value : Word)
  /-- WATCHED_CHANNEL_WRITE (R129): a data word reaches a watched-channel word. -/
  | watchedChannelWrite (p : Port) (value : Word)
  /-- TIMESTAMP_LOW_READ (R75). -/
  | timestampLowRead (p : Port)
  /-- COUNTER_LOW_WORD_READ (R153): counter 0-4 (in the order of R4) of the port's slot 0-7. -/
  | counterLowWordRead (p : Port) (slot : Fin 8) (counter : Fin 5)
  /-- RECORD_FIRST_WORD_READ (R137, R140). -/
  | recordFirstWordRead (p : Port) (holder : RecordHolder)
  /-- RESULT_WORD_READ (R153). -/
  | resultWordRead (p : Port)
  /-- UNKNOWN_COMMAND (R145): a code that names no command is written to the command word. -/
  | unknownCommand (p : Port) (code : Word)
  /-- OPEN (R147). -/
  | openPort (p : Port)
  /-- CLOSE (R148). -/
  | closePort (p : Port)
  /-- RESET_PORT (R149). -/
  | resetPort (p : Port)
  /-- POST (R6). -/
  | post (p : Port)
  /-- CANCEL (R76). -/
  | cancel (p : Port)
  /-- TRIGGER (R40). -/
  | trigger (p : Port)
  /-- ACK_QUEUE (R135). -/
  | ackQueue (p : Port)
  /-- RELEASE_SLOTS (R141). -/
  | releaseSlots (p : Port)
  /-- POP_COMPLETION (R22). -/
  | popCompletion (p : Port)
  /-- CLAIM_TIMER (R32). -/
  | claimTimer (p : Port)
  /-- SET_TIMER (R33). -/
  | setTimer (p : Port)
  /-- START_TIMER (R34). -/
  | startTimer (p : Port)
  /-- STOP_TIMER (R34). -/
  | stopTimer (p : Port)
  /-- RELEASE_TIMER (R35). -/
  | releaseTimer (p : Port)
  /-- SET_LINE (R38). -/
  | setLine (p : Port)
  /-- LEASE (R97). -/
  | lease (p : Port)
  /-- END_LEASE (R100). -/
  | endLease (p : Port)
  /-- SET_PROVISIONAL (R101). -/
  | setProvisional (p : Port)
  /-- DROP_PROVISIONAL (R102). -/
  | dropProvisional (p : Port)
  /-- COMMIT (R104). -/
  | commit (p : Port)
  /-- BURN_FACTORY (R105). -/
  | burnFactory (p : Port)
  /-- RELOAD (R106). -/
  | reload (p : Port)
  /-- RESTART_CONVERTER (R72). -/
  | restartConverter (p : Port)
  /-- DEVICE_RESET (R150). -/
  | deviceReset
  /-- DEVICE_RESET_END (R150). -/
  | deviceResetEnd
  /-- PORT_RESET_LINE (R149): nPRSTx has been low for 1 µs. -/
  | portResetLine (p : Port)
  /-- PORT_RESET_LINE_RELEASE (R149). -/
  | portResetLineRelease (p : Port)
  /-- LINE_INPUT_CHANGE (R37): the input of a trigger line takes a level (`true` is high). -/
  | lineInputChange (line : Fin 4) (level : Bool)
  /-- LINE_QUALIFICATION_END (R37). -/
  | lineQualificationEnd (line : Fin 4)
  /-- TIMER_UNIT (R29). -/
  | timerUnit (timer : Fin 4)
  /-- TIMER_EXPIRY (R29). -/
  | timerExpiry (timer : Fin 4)
  /-- GRANT (R50). -/
  | grant
  /-- START_CONVERSION (R62). -/
  | startConversion (taking : ReportTaking)
  /-- CONVERTER_DONE (R63): the converter raises done. The end may start a FLUSH, whose readout may report a sweep. -/
  | converterDone (done : ConversionEnd)
  /-- DONE_TIMEOUT (R69). -/
  | doneTimeout
  /-- CUT (R80): the sequencer takes the cut handed to it for the sweep of `slot`. -/
  | cut (slot : SlotId)
  /-- TIME_WRAP (R74). -/
  | timeWrap
  /-- QUEUE_TIMEOUT_TICK (R138). -/
  | queueTimeoutTick (p : Port)
  /-- QUEUE_TIMEOUT_EXPIRY (R138). -/
  | queueTimeoutExpiry (p : Port)
  /-- LEASE_EXPIRY (R99). -/
  | leaseExpiry
  /-- STORE_WRITE_END (R111): `verified` says whether the values read back equal the values written. -/
  | storeWriteEnd (verified : Bool)
  /-- STORE_READ_END (R112). -/
  | storeReadEnd
  /-- LOAD_CHANNEL_END (R114). -/
  | loadChannelEnd
  deriving DecidableEq, Repr

end Sys2Proof
end

