-- ==== Sys2Proof/Decode.lean ====
section
/-! DEFINITION. The command that a word spells by the table's bits. -/
namespace Sys2Proof

/-- No row of spec/opcode_table.json gives bits (every row's "fields" is empty and no row has a fixed pattern), so no
word spells a command. What a word of a frame does is R143 and R144: see Machine/Frames.lean. -/
def decodeTableWord (_nbits _w : Nat) : Option Instr := none

end Sys2Proof
end

