-- ==== Sys2Proof/Config.lean ====
section
/-! DEFINITION. The numbers that the manual fixes for every SA340, and the values that it leaves open. -/
namespace Sys2Proof

/-- The base settle, in microseconds (R60). -/
def Config.baseSettle : Nat := 3

/-- The settle asked for by one unit of settle extension, in microseconds (R60). -/
def Config.settleUnit : Nat := 4

/-- The done timeout, in microseconds after a START (R69). -/
def Config.doneLimit : Nat := 20

/-- The entries of the pool that the receive queues are cut from (R142). -/
def Config.poolEntries : Nat := 256

/-- The largest size of a receive queue (R130). -/
def Config.maxQueueSize : Nat := 64

/-- The records that a completion queue holds at most (R21). -/
def Config.completionCapacity : Nat := 16

/-- The limit of the passed-over count (R48). -/
def Config.agingLimit : Nat := 8

/-- The limit of the overwritten count (R133). -/
def Config.overwrittenLimit : Nat := 32768

/-- The unit of the queue timeout counter, in microseconds (R138). -/
def Config.timeoutUnit : Nat := 100

/-- The unit of a lease's duration, in microseconds (R96: 100 ms). -/
def Config.leaseUnit : Nat := 100000

/-- The largest remaining time of a lease, in microseconds (R96: 25,500 ms). -/
def Config.maxLease : Nat := 25500000

/-- The reading of one record of the store, in microseconds (R112, R114: 2.5 ms). -/
def Config.readTime : Nat := 2500

/-- A write of one record with its verify, in microseconds (R111: 5 ms). -/
def Config.writeTime : Nat := 5000

/-- The gain that is unity (00_scope.md "Values", R91). -/
def Config.unityGain : Word := 16384

/-- FREE VALUE, one for each `k`: an order of two parts of one taking that the manual does not give. DESIGN CHOICE,
notes/assumptions/5.md and 6.md. -/
opaque Config.orderBit (k : Nat) : Bool

/-- FREE VALUE, one for each `k` and slot: the place of a posting among those that one trigger occurrence ends.
DESIGN CHOICE, notes/assumptions/7.md. -/
opaque Config.endingRank (k : Nat) (i : SlotId) : Nat

/-- FREE VALUE, one for each `k`: the remaining time, in microseconds, shown after a lease is ended before its time.
DESIGN CHOICE, notes/assumptions/8.md. -/
opaque Config.endedLease (k : Nat) : Nat

end Sys2Proof
end

