-- ==== Sys2Proof/Machine/State.lean ====
section
/-! DEFINITION. The state of the SA340, block by block, the reasons a step can stop, and the state after reset. -/
namespace Sys2Proof.Machine

/-! ### Named values -/

/-- R146. -/
inductive PortMode
  | closed | opened
  deriving DecidableEq, Repr

/-- R59. -/
inductive Link
  | ready | faulted | restarting
  deriving DecidableEq, Repr

/-- The edge setting of a trigger line (R37). -/
inductive EdgeSetting
  | rising | falling | both
  deriving DecidableEq, Repr

/-- The debounce setting of a trigger line (R37). -/
inductive Debounce
  | none | us4 | us64 | ms1
  deriving DecidableEq, Repr

/-- The cal-source flag of a sample record (R94), in the order of its codes (11_word_layouts.md §11.5). -/
inductive CalSource
  | raw | default | loading | factory | field | provisional
  deriving DecidableEq, Repr

/-- The source of a committed part (R91), in the order of its codes (§11.9). -/
inductive CommittedSource
  | loading | default | factory | field
  deriving DecidableEq, Repr

/-- The state of a queue timeout counter (R138). -/
inductive TimeoutState
  | held | counting | expired
  deriving DecidableEq, Repr

/-- The outcome of a posting (R16), in the order of its codes (§11.7). -/
inductive EndOutcome
  | completed | completedDespiteCancel | cancelled | overrun | converterFault
  deriving DecidableEq, Repr

/-- What began a drain (R4). -/
inductive DrainCause
  | cancel | overrun
  deriving DecidableEq, Repr

/-- The result codes (R145). -/
inductive ResultCode
  | ok | accepted | closed | notIdle | notActive | badField | badTarget | badPolicy | noRoom | inUse
  | notOwner | busy | locked | noLease | leaseHeld | staleIndex | badIndex | empty | already | badTrigger
  | unknownCommand
  deriving DecidableEq, Repr

/-- The 22 events (R151). -/
inductive Event
  | q0Watermark | q0Full | q0Lost | q1Watermark | q1Full | q1Lost | queueTimeout | slotNew
  | urgent | watched | completion | completionLost | stalled | triggerMissed | converterFault | converterReady
  | leaseLost | storeDone | storeFailed | loadDone | timeWrap | writeDiscarded
  deriving DecidableEq, Repr

/-! ### Request Table (chapter 1) -/

/-- One element of a scan list, its bits as the slot's words hold them (R2, §11.4). -/
structure ScanEntry where
  channel : BitVec 6
  extension : BitVec 4
  count : BitVec 4
  deriving DecidableEq, Repr

/-- The writable fields of a slot, their bits as the slot's words hold them (R2, §11.4, R153). -/
structure SlotFields where
  tag : BitVec 8
  priority : BitVec 5
  scanLength : BitVec 5
  source : BitVec 4
  strict : Bool
  share : Bool
  raw : Bool
  sweepCount : BitVec 16
  target : BitVec 3
  base : BitVec 5
  policy : BitVec 2
  entries : Vector ScanEntry 16
  deriving DecidableEq, Repr

/-- The drain record of a DRAINING slot (R4). -/
structure Drain where
  cause : DrainCause
  cut : Bool
  deriving DecidableEq, Repr

/-- The state of a slot (R4). A slot holds a drain record only while it is DRAINING. -/
inductive SlotState
  | idle | armed | due | stalled | running
  | draining (drain : Drain)
  deriving DecidableEq, Repr

/-- The five counters of a slot (R4, R18), counting modulo 2^32. -/
structure Counters where
  sweepsDone : DWord
  entriesProduced : DWord
  samplesDelivered : DWord
  samplesLost : DWord
  triggersMissed : DWord
  deriving DecidableEq, Repr

/-- A request slot (R2, R4). `held` is what the posting still holds of its sweep's reservation (R16, R86);
`truncatedAt` is the entry at which a cut has truncated the sweep in flight (R80). -/
structure Slot where
  fields : SlotFields
  state : SlotState
  counters : Counters
  pendingTrigger : Bool
  passedOver : Nat
  dueStamp : Word
  held : Nat
  truncatedAt : Option Nat
  deriving DecidableEq, Repr

/-- A completion record (R20). -/
structure CompletionRecord where
  slot : SlotId
  tag : BitVec 8
  outcome : EndOutcome
  counters : Counters
  endTime : DWord
  deriving DecidableEq, Repr

/-! ### Trigger Unit (chapter 2) -/

/-- The state of a pacing timer with its owner, which is present in HELD and RUNNING only (R28). -/
inductive TimerState
  | free
  | held (owner : Port)
  | running (owner : Port)
  | orphanedRunning
  | orphanedStopped
  deriving DecidableEq, Repr

/-- A pacing timer (R28). `phase` counts the microseconds of the unit in progress. -/
structure Timer where
  state : TimerState
  prescale : Nat
  period : Nat
  count : Nat
  refs : Nat
  prescaleInUse : Nat
  periodInUse : Nat
  phase : Nat
  deriving DecidableEq, Repr

/-- A qualification in progress (R37): the candidate level and the time at which the debounce ends. -/
structure Qualification where
  level : Bool
  endTime : Nat
  deriving DecidableEq, Repr

/-- A trigger line (R37). `input` is the level of the pin. -/
structure Line where
  edge : EdgeSetting
  debounce : Debounce
  level : Bool
  candidate : Option Qualification
  input : Bool
  deriving DecidableEq, Repr

/-! ### Converter Arbiter (chapter 3) -/

/-- The arbiter's state (R41). The due list is the view `State.dueList`: it holds exactly the slots that are DUE. -/
structure Arbiter where
  stampOrder : List Word
  stampCounter : Word
  lastGranted : Port
  deriving DecidableEq, Repr

/-! ### Conversion Sequencer (chapter 4) -/

/-- What the record of a sweep's conversion carries (R58). -/
structure SweepRecord where
  slot : SlotId
  sweepIndex : Word
  entry : Nat
  repetition : Nat
  channel : Channel
  extension : Nat
  count : Nat
  deriving DecidableEq, Repr

/-- The tag of a record (R58). A FLUSH or DUMMY carries the channel selected at its START. -/
inductive RecordTag
  | sweep (r : SweepRecord)
  | flush (channel : Option Channel)
  | dummy (channel : Option Channel)
  | stale
  deriving DecidableEq, Repr

/-- A started record: its tag and the time of its START (R58). -/
structure StartedRecord where
  tag : RecordTag
  startTime : DWord
  deriving DecidableEq, Repr

/-- The averaging accumulator (R59, R66). -/
structure Accumulator where
  slot : SlotId
  sweepIndex : Word
  entry : Nat
  sum : Int
  readouts : Nat
  overRange : Bool
  firstStart : DWord
  deriving DecidableEq, Repr

/-- The active sweep (R59). -/
structure ActiveSweep where
  slot : SlotId
  sweepIndex : Word
  deriving DecidableEq, Repr

/-- The sequencer's state (R58, R59). `selected` is the next-conversion register; only a grant or a refill fills it, so
it holds a sweep's record. `converterCode` is the result in the converter's own buffer (R57). `cuts` are the cuts handed
to the sequencer and not yet taken (R79). `reports` are the slots whose sweeps have been reported as completed and whose
reports the Request Table has not yet taken, in the order of the readouts (R67, notes/assumptions/4.md). Times are on the
time base `State.now`. -/
structure Sequencer where
  link : Link
  selectedChannel : Option Channel
  settledTime : Nat
  active : Option ActiveSweep
  accumulator : Option Accumulator
  doneTimeout : Option Nat
  selected : Option SweepRecord
  converting : Option StartedRecord
  buffer : Option StartedRecord
  converterCode : Word
  cuts : List SlotId
  reports : List SlotId
  deriving DecidableEq, Repr

/-! ### Calibration Unit (chapter 6) -/

/-- An offset, in two's complement, and a gain (R91). -/
structure Coefficients where
  offset : Word
  gain : Word
  deriving DecidableEq, Repr

/-- An entry of the working coefficient table (R91). -/
structure CalEntry where
  committed : Coefficients
  source : CommittedSource
  provisional : Option Coefficients
  commitPending : Bool
  deriving DecidableEq, Repr

/-- The lease (R96). `remaining` is in microseconds; `duration` in units of 100 ms. -/
structure Lease where
  holder : Option Port
  duration : Nat
  remaining : Nat
  deriving DecidableEq, Repr

/-- The kind of a store operation, with the captured values of a write (R103). -/
inductive CommitKind
  | commit (captured : Coefficients)
  | burnFactory (captured : Coefficients)
  | reload
  deriving DecidableEq, Repr

/-- A commit record that is not empty (R103). -/
structure CommitRecord where
  kind : CommitKind
  channel : Channel
  initiator : Port
  deriving DecidableEq, Repr

/-- The Calibration Unit's state (R91, R96, R103). -/
structure Calibration where
  table : Vector CalEntry 32
  lease : Lease
  commit : Option CommitRecord
  deriving DecidableEq, Repr

/-! ### Coefficient Store (chapter 7) -/

/-- A nonvolatile record (R108): its offset and gain have a meaning only while it is VALID. -/
inductive StoreRecord
  | unwritten
  | valid (values : Coefficients)
  | invalid
  deriving DecidableEq, Repr

/-- The state of the store with its channel and, for a write, the values the write was given (R110, R111). -/
inductive StoreOp
  | loading (channel : Channel)
  | idle
  | reading (channel : Channel)
  | writingField (channel : Channel) (values : Coefficients)
  | writingFactory (channel : Channel) (values : Coefficients)
  deriving DecidableEq, Repr

/-- The store (R108, R110). `opEnd` is the time at which the operation ends; in LOADING, the channel's reading. -/
structure Store where
  fieldRecords : Vector StoreRecord 32
  factoryRecords : Vector StoreRecord 32
  op : StoreOp
  opEnd : Nat
  deriving DecidableEq, Repr

/-! ### Delivery Unit and Sample Memory (chapters 8 and 9) -/

/-- A filter element, its bits as its two words hold them (R124, §11.6). -/
structure FilterElement where
  enabled : Bool
  kind : BitVec 2
  first : BitVec 8
  second : BitVec 8
  sources : BitVec 3
  action : BitVec 4
  slot : BitVec 4
  deriving DecidableEq, Repr

/-- A sample record (R122). -/
structure SampleRecord where
  value : Word
  channel : Channel
  entry : BitVec 4
  slot : SlotId
  sourcePort : Port
  tag : BitVec 8
  sweepIndex : Word
  timestamp : DWord
  overRange : Bool
  clamp : Bool
  shared : Bool
  urgent : Bool
  calSource : CalSource
  deriving DecidableEq, Repr

/-- A position of a ring: an element number and a sample record (R131). -/
structure Position where
  number : Word
  record : SampleRecord
  deriving DecidableEq, Repr

/-- A receive queue's ring (R131). Its size is configuration. -/
structure Ring where
  positions : Vector Position 64
  put : Nat
  get : Nat
  fill : Nat
  reserved : Nat
  nextNumber : Word
  overwritten : Nat
  deriving DecidableEq, Repr

/-- A latest-value slot (R140). -/
structure LatestSlot where
  record : SampleRecord
  newData : Bool
  deriving DecidableEq, Repr

/-- The configuration words of one queue, as written (R130). -/
structure QueueConfig where
  size : Word
  mode : Word
  watermark : Word
  deriving DecidableEq, Repr

/-- A port's queue configuration and timeout configuration, as written (R130). -/
structure PortConfig where
  q0 : QueueConfig
  q1 : QueueConfig
  timeoutSource : Word
  timeoutPreset : Word
  deriving DecidableEq, Repr

/-- A queue timeout counter (R138). `elapsed` counts the microseconds of the 100 µs unit in progress. -/
structure TimeoutCounter where
  value : Nat
  state : TimeoutState
  elapsed : Nat
  deriving DecidableEq, Repr

/-! ### Port Interface (chapter 10) -/

/-- A word captured for the rest of a frame, with the address whose reads return it (R75, R137, R140, R153). -/
structure Capture where
  address : BitVec 12
  word : Word
  deriving DecidableEq, Repr

/-- A frame in progress whose header has been received (R143): its direction, the address of the next data word, the
words captured in it, and whether the port ignores it because its reset line was low at the header (R149). -/
structure Frame where
  write : Bool
  address : BitVec 12
  captures : List Capture
  ignored : Bool
  deriving DecidableEq, Repr

/-- The result word (R145). -/
structure ResultWord where
  code : ResultCode
  command : BitVec 5
  count : BitVec 8
  deriving DecidableEq, Repr

/-- The parameter words (R145). -/
structure Params where
  p0 : Word
  p1 : Word
  p2 : Word
  p3 : Word
  deriving DecidableEq, Repr

/-- All that belongs to one port. `lineCut` is the time at which the port reset line's reset ended a write frame that had
come to the command word: a RESET_PORT that meets the line's reset at that moment is still taken (R149,
notes/assumptions/38.md). -/
structure PortState where
  mode : PortMode
  config : PortConfig
  params : Params
  commandWord : Word
  result : ResultWord
  flags : BitVec 22
  enables : BitVec 22
  watched : BitVec 32
  frame : Option Frame
  lineLow : Bool
  lineCut : Option Nat
  filters : Vector FilterElement 16
  unmatched : BitVec 2
  ring0 : Ring
  ring1 : Ring
  latest : Vector LatestSlot 16
  timeout : TimeoutCounter
  completions : List CompletionRecord
  deriving DecidableEq, Repr

/-- The three ports. -/
structure Ports where
  a : PortState
  b : PortState
  c : PortState
  deriving DecidableEq, Repr

/-- The state of the SA340. `now` counts the microseconds since the last device reset ended (R74), `inReset` says that
a device reset lasts (R150), `pending` is the queue of waiting commands, and `freeCount` numbers the free values that
have been used. -/
structure State where
  now : Nat
  inReset : Bool
  ports : Ports
  slots : Vector Slot 24
  timers : Vector Timer 4
  lines : Vector Line 4
  arbiter : Arbiter
  seq : Sequencer
  cal : Calibration
  store : Store
  freeCount : Nat
  pending : List Instr
  deriving DecidableEq, Repr

/-- A reason for which the machine stops with a fault. There is none: the manual gives every command and every event
an effect, so no step of the model raises a fault. Safe: nothing is cut short. -/
inductive Fault
  deriving DecidableEq, Repr

/-- A reason for which a command has no meaning. -/
inductive Refusal
  /-- Raised by the dispatch alone, for a command whose meaning is not written. No arm raises it. Safe: a refusal
  stops the run and proves nothing about the hardware. -/
  | notModelled (mnemonic : String)
  deriving DecidableEq, Repr

/-! ### Reset values -/

/-- R2. -/
def ScanEntry.reset : ScanEntry := { channel := 0, extension := 0, count := 1 }

/-- R2. The SLOTS base, which R2 gives no reset value beside the target NONE: DESIGN CHOICE, notes/assumptions/33.md. -/
def SlotFields.reset : SlotFields :=
  { tag := 0, priority := 15, scanLength := 1, source := 0, strict := false, share := false, raw := false
    sweepCount := 1, target := 0, base := 0, policy := 0, entries := Vector.replicate 16 ScanEntry.reset }

/-- R5, R9. -/
def Counters.zero : Counters := ⟨0, 0, 0, 0, 0⟩

/-- R5. -/
def Slot.reset : Slot :=
  { fields := SlotFields.reset, state := .idle, counters := Counters.zero, pendingTrigger := false
    passedOver := 0, dueStamp := 0, held := 0, truncatedAt := none }

/-- R28. -/
def Timer.reset : Timer :=
  { state := .free, prescale := 1, period := 1000, count := 0, refs := 0
    prescaleInUse := 1, periodInUse := 1000, phase := 0 }

/-- R37. The qualified level is the level the input has when the reset ends. -/
def Line.reset (input : Bool) : Line :=
  { edge := .rising, debounce := .us4, level := input, candidate := none, input := input }

/-- R41. -/
def Arbiter.reset : Arbiter := { stampOrder := [], stampCounter := 0, lastGranted := .c }

/-- R59. `converterCode` is the converter's, not the part's: DESIGN CHOICE, notes/assumptions/17.md. The START time that the
STALE buffer record holds, 0: DESIGN CHOICE, notes/assumptions/35.md. -/
def Sequencer.reset : Sequencer :=
  { link := .ready, selectedChannel := none, settledTime := 0, active := none, accumulator := none
    doneTimeout := none, selected := none, converting := none, buffer := some ⟨.stale, 0⟩
    converterCode := 0, cuts := [], reports := [] }

/-- Offset 0 and gain 16384 (R91, R114). -/
def Coefficients.unity : Coefficients := { offset := 0, gain := Config.unityGain }

/-- R91. -/
def CalEntry.reset : CalEntry :=
  { committed := Coefficients.unity, source := .loading, provisional := none, commitPending := false }

/-- R91, R96, R103. The duration: DESIGN CHOICE, notes/assumptions/11.md. -/
def Calibration.reset : Calibration :=
  { table := Vector.replicate 32 CalEntry.reset, lease := { holder := none, duration := 0, remaining := 0 }
    commit := none }

/-- The store of a new part at the start of its load (R108, R114): no record is VALID, so channel 0 takes two reads. -/
def Store.new : Store :=
  { fieldRecords := Vector.replicate 32 .unwritten, factoryRecords := Vector.replicate 32 .unwritten
    op := .loading 0, opEnd := Config.readTime + Config.readTime }

/-- A record of zeros (R136). -/
def SampleRecord.zero : SampleRecord :=
  { value := 0, channel := 0, entry := 0, slot := 0, sourcePort := .a, tag := 0, sweepIndex := 0, timestamp := 0
    overRange := false, clamp := false, shared := false, urgent := false, calSource := .raw }

/-- An emptied ring (R136). -/
def Ring.empty : Ring :=
  { positions := Vector.replicate 64 ⟨0, SampleRecord.zero⟩, put := 0, get := 0, fill := 0, reserved := 0
    nextNumber := 0, overwritten := 0 }

/-- A cleared latest-value slot (R140). -/
def LatestSlot.empty : LatestSlot := { record := SampleRecord.zero, newData := false }

/-- R118. -/
def FilterElement.reset : FilterElement :=
  { enabled := false, kind := 0, first := 0, second := 0, sources := 0, action := 0, slot := 0 }

/-- R130. -/
def QueueConfig.reset : QueueConfig := { size := 0, mode := 0, watermark := 0 }

/-- R130. -/
def PortConfig.reset : PortConfig :=
  { q0 := QueueConfig.reset, q1 := QueueConfig.reset, timeoutSource := 0, timeoutPreset := 10000 }

/-- R138. -/
def TimeoutCounter.reset : TimeoutCounter := { value := 10000, state := .held, elapsed := 0 }

/-- R145. -/
def ResultWord.reset : ResultWord := { code := .ok, command := 0, count := 0 }

/-- A port after a device reset (R150), with the pin nPRSTx as it is. The command word: DESIGN CHOICE,
notes/assumptions/12.md. -/
def PortState.reset (lineLow : Bool) : PortState :=
  { mode := .closed, config := PortConfig.reset, params := ⟨0, 0, 0, 0⟩, commandWord := 0
    result := ResultWord.reset, flags := 0, enables := 0, watched := 0, frame := none, lineLow := lineLow
    lineCut := none
    filters := Vector.replicate 16 FilterElement.reset, unmatched := 0, ring0 := Ring.empty, ring1 := Ring.empty
    latest := Vector.replicate 16 LatestSlot.empty, timeout := TimeoutCounter.reset, completions := [] }

/-- The machine right after the device reset of a new part (R150 and the reset values of each chapter). The levels of
the line inputs: DESIGN CHOICE, notes/assumptions/9.md; the records of a new part: notes/assumptions/10.md. -/
def State.reset : State :=
  { now := 0, inReset := false, ports := ⟨PortState.reset false, PortState.reset false, PortState.reset false⟩
    slots := Vector.replicate 24 Slot.reset, timers := Vector.replicate 4 Timer.reset
    lines := Vector.replicate 4 (Line.reset false), arbiter := Arbiter.reset, seq := Sequencer.reset
    cal := Calibration.reset, store := Store.new, freeCount := 0, pending := [] }

end Sys2Proof.Machine
end

