-- ==== Sys2Proof/Machine/Flags.lean ====
section
/-! DEFINITION. Event flags, event enables and the interrupt line of a port (R151, R152, 11_word_layouts.md §11.8). -/
namespace Sys2Proof.Machine

/-- The bit of an event in the flags and the enables: bits 0-15 are flag word 0, bits 16-21 flag word 1 (§11.8). -/
def Event.bit : Event → Nat
  | .q0Watermark => 0
  | .q0Full => 1
  | .q0Lost => 2
  | .q1Watermark => 3
  | .q1Full => 4
  | .q1Lost => 5
  | .queueTimeout => 6
  | .slotNew => 7
  | .urgent => 8
  | .watched => 9
  | .completion => 10
  | .completionLost => 11
  | .stalled => 12
  | .triggerMissed => 13
  | .converterFault => 14
  | .converterReady => 15
  | .leaseLost => 16
  | .storeDone => 17
  | .storeFailed => 18
  | .loadDone => 19
  | .timeWrap => 20
  | .writeDiscarded => 21

/-- An event is raised at the port: its flag is set, and a flag already set stays set (R151). -/
def PortState.raise (e : Event) (ps : PortState) : PortState :=
  { ps with flags := ps.flags ||| BitVec.twoPow 22 e.bit }

/-- Whether the flag of an event is set. -/
def PortState.flag (e : Event) (ps : PortState) : Bool := ps.flags.getLsbD e.bit

/-- Whether the enable of an event is set. -/
def PortState.enabled (e : Event) (ps : PortState) : Bool := ps.enables.getLsbD e.bit

/-- The level of nIRQx without a device reset: high unless a flag and its enable are both set (R152). -/
def PortState.irqHigh (ps : PortState) : Bool := ps.flags &&& ps.enables == 0

/-- The bits of flag or enable word 0 (`false`) or word 1 (`true`) at their places among the 22. -/
def eventWordBits (second : Bool) (v : Word) : BitVec 22 :=
  if second then v.setWidth 22 <<< 16 else v.setWidth 22

/-- The places of flag or enable word 0 or 1 among the 22. -/
def eventWordMask (second : Bool) : BitVec 22 := eventWordBits second 0xFFFF

/-- A write to an event flag word: each 1 clears its flag, a 0 leaves it (R151). -/
def PortState.clearFlags (second : Bool) (v : Word) (ps : PortState) : PortState :=
  { ps with flags := ps.flags &&& ~~~(eventWordBits second v) }

/-- A write to an event enable word stores its enables and leaves those of the other word (R152). -/
def PortState.writeEnables (second : Bool) (v : Word) (ps : PortState) : PortState :=
  { ps with enables := (ps.enables &&& ~~~(eventWordMask second)) ||| eventWordBits second v }

/-- Flag or enable word 0 or 1 as it reads (§11.8). -/
def eventWord (second : Bool) (bits : BitVec 22) : Word :=
  if second then (bits >>> 16).setWidth 16 else bits.setWidth 16

end Sys2Proof.Machine
end

