-- ==== Sys2Proof/Machine/Operands.lean ====
section
/-! DEFINITION. The operand forms: what the codes in parameter words, slot words, configuration words and filter
elements mean (11_word_layouts.md), and the codes that the window shows. -/
namespace Sys2Proof.Machine

/-! ### Ports and slots -/

/-- Wherever a port number appears it is 0 for A, 1 for B and 2 for C (§11.2). -/
def portCode : Port → Nat
  | .a => 0
  | .b => 1
  | .c => 2

/-- A port, or 3 for none (§11.2). -/
def ownerCode : Option Port → Nat
  | some p => portCode p
  | none => 3

/-- The port after a given port in port rotation (00_scope.md, "Ports"). -/
def portAfter : Port → Port
  | .a => .b
  | .b => .c
  | .c => .a

/-- The three ports. -/
def allPorts : List Port := [.a, .b, .c]

/-- The 24 slots, in slot-number order. -/
def allSlots : List SlotId :=
  [0, 1, 2, 3, 4, 5, 6, 7, 8, 9, 10, 11, 12, 13, 14, 15, 16, 17, 18, 19, 20, 21, 22, 23]

/-- A slot's owner: A owns 0-7, B 8-15, C 16-23 (00_scope.md, "Request slots"). -/
def slotOwner (i : SlotId) : Port := if i.val < 8 then .a else if i.val < 16 then .b else .c

/-- The eight slots of a port. -/
def portSlots (p : Port) : List SlotId := allSlots.filter fun i => slotOwner i == p

/-- The port's slot that a parameter word names; none if it names no slot or another port's (R6, R40, R76, check 2). -/
def ownSlot (p : Port) (w : Word) : Option SlotId :=
  if h : w.toNat < 24 then
    if slotOwner ⟨w.toNat, h⟩ = p then some ⟨w.toNat, h⟩ else none
  else none

/-! ### Parameter words -/

/-- A timer number 0-3 (R31). -/
def timerNumber (w : Word) : Option (Fin 4) := if h : w.toNat < 4 then some ⟨w.toNat, h⟩ else none

/-- A line number 0-3 (R38). -/
def lineNumber (w : Word) : Option (Fin 4) := if h : w.toNat < 4 then some ⟨w.toNat, h⟩ else none

/-- A channel number 0-31 (R101-R106). -/
def channelNumber (w : Word) : Option Channel := if w.toNat < 32 then some (w.setWidth 5) else none

/-- A queue number 0 or 1 (R135). -/
def queueNumber (w : Word) : Option QueueId :=
  if w.toNat = 0 then some .q0 else if w.toNat = 1 then some .q1 else none

/-- The mode of a CANCEL (R76). -/
inductive CancelMode
  | finish | cut
  deriving DecidableEq, Repr

/-- §11.3: 0 FINISH, 1 CUT. -/
def cancelMode (w : Word) : Option CancelMode :=
  if w.toNat = 0 then some .finish else if w.toNat = 1 then some .cut else none

/-- §11.3: 0 RISING, 1 FALLING, 2 BOTH. -/
def edgeSetting (w : Word) : Option EdgeSetting :=
  if w.toNat = 0 then some .rising else if w.toNat = 1 then some .falling
  else if w.toNat = 2 then some .both else none

/-- §11.3: 0 NONE, 1 4 µs, 2 64 µs, 3 1 ms. -/
def debounceSetting (w : Word) : Option Debounce :=
  if w.toNat = 0 then some .none else if w.toNat = 1 then some .us4
  else if w.toNat = 2 then some .us64 else if w.toNat = 3 then some .ms1 else none

/-- A debounce time in microseconds (R37). -/
def Debounce.time : Debounce → Nat
  | .none => 0
  | .us4 => 4
  | .us64 => 64
  | .ms1 => 1000

/-! ### Slot fields (R2, R7) -/

/-- The ten trigger sources (R2). -/
inductive TriggerSource
  | immediate
  | timer (n : Fin 4)
  | line (n : Fin 4)
  | command
  deriving DecidableEq, Repr

/-- §11.4: 0 IMMEDIATE, 1-4 TIMER 0-3, 5-8 LINE 0-3, 9 COMMAND. -/
def triggerSource (code : BitVec 4) : Option TriggerSource :=
  let n := code.toNat
  if n = 0 then some .immediate
  else if h : n - 1 < 4 then some (.timer ⟨n - 1, h⟩)
  else if h : n - 5 < 4 then some (.line ⟨n - 5, h⟩)
  else if n = 9 then some .command
  else none

/-- The destinations of own delivery (R2). -/
inductive Target
  | none
  | queue (q : QueueId)
  | slots (base : Nat)
  deriving DecidableEq, Repr

/-- §11.4: 0 NONE, 1 Q0, 2 Q1, 3 SLOTS; SLOTS with a base above 15 names no target (R7). -/
def SlotFields.targetOf (f : SlotFields) : Option Target :=
  let n := f.target.toNat
  if n = 0 then some .none
  else if n = 1 then some (.queue .q0)
  else if n = 2 then some (.queue .q1)
  else if n = 3 then (if f.base.toNat ≤ 15 then some (.slots f.base.toNat) else none)
  else none

/-- The policies (R2). -/
inductive Policy
  | drop | stall
  deriving DecidableEq, Repr

/-- §11.4: 0 DROP, 1 STALL. -/
def SlotFields.policyOf (f : SlotFields) : Option Policy :=
  if f.policy.toNat = 0 then some .drop else if f.policy.toNat = 1 then some .stall else none

/-- The trigger source of a slot's fields. -/
def SlotFields.sourceOf (f : SlotFields) : Option TriggerSource := triggerSource f.source

/-- Scan entry `e`. -/
def SlotFields.entryAt (f : SlotFields) (e : Nat) : ScanEntry :=
  if h : e < 16 then f.entries[e] else ScanEntry.reset

/-- A scan entry in range (R7). -/
def ScanEntry.inRange (e : ScanEntry) : Bool :=
  e.channel.toNat ≤ 31 && e.extension.toNat ≤ 7 &&
    (e.count.toNat == 1 || e.count.toNat == 2 || e.count.toNat == 4 || e.count.toNat == 8)

/-- The range check of POST (R7). -/
def SlotFields.inRange (f : SlotFields) : Bool :=
  f.priority.toNat ≤ 15 && (1 ≤ f.scanLength.toNat && f.scanLength.toNat ≤ 16) &&
    (List.range f.scanLength.toNat).all (fun e => (f.entryAt e).inRange) &&
    f.sourceOf.isSome && f.targetOf.isSome && f.policyOf.isSome

/-- Whether a request names pacing timer `n`. -/
def SlotFields.namesTimer (f : SlotFields) (n : Fin 4) : Bool := f.sourceOf == some (.timer n)

/-- Whether a request names trigger line `n`. -/
def SlotFields.namesLine (f : SlotFields) (n : Fin 4) : Bool := f.sourceOf == some (.line n)

/-! ### Filter elements (R124) -/

/-- The six actions of a filter element (R124). -/
inductive FilterAction
  | reject
  | store (q : QueueId)
  | storeUrgent
  | watch
  | storeSlot (n : Fin 16)
  deriving DecidableEq, Repr

/-- §11.6: 0 REJECT, 1 STORE_Q0, 2 STORE_Q1, 3 STORE_Q0_URGENT, 4 WATCH, 5 STORE_SLOT. -/
def FilterElement.actionOf (f : FilterElement) : Option FilterAction :=
  let n := f.action.toNat
  if n = 0 then some .reject
  else if n = 1 then some (.store .q0)
  else if n = 2 then some (.store .q1)
  else if n = 3 then some .storeUrgent
  else if n = 4 then some .watch
  else if n = 5 then some (.storeSlot ⟨f.slot.toNat, f.slot.isLt⟩)
  else none

/-- The unmatched action: 0 REJECT, 1 STORE_Q0, 2 STORE_Q1; a code that names none is REJECT (R118). -/
def unmatchedAction (code : BitVec 2) : FilterAction :=
  if code.toNat = 1 then .store .q0 else if code.toNat = 2 then .store .q1 else .reject

/-- Whether the match kind of an element matches a sample's channel and tag (R124): 0 RANGE, 1 PAIR, 2 MASK, 3 TAG.
RANGE, PAIR and MASK compare bits 4-0 of the operands. -/
def FilterElement.kindMatches (f : FilterElement) (channel : Channel) (tag : BitVec 8) : Bool :=
  let a : Channel := f.first.setWidth 5
  let b : Channel := f.second.setWidth 5
  if f.kind.toNat = 0 then a.toNat ≤ channel.toNat && channel.toNat ≤ b.toNat
  else if f.kind.toNat = 1 then channel == a || channel == b
  else if f.kind.toNat = 2 then channel &&& b == a &&& b
  else tag &&& f.second == f.first &&& f.second

/-- Whether a port is in the source set: bit 0 A, bit 1 B, bit 2 C (§11.6). -/
def FilterElement.accepts (f : FilterElement) (source : Port) : Bool := f.sources.getLsbD (portCode source)

/-! ### Codes that the window shows -/

/-- The result codes (R145). -/
def ResultCode.code : ResultCode → BitVec 5
  | .ok => 0
  | .accepted => 1
  | .closed => 2
  | .notIdle => 3
  | .notActive => 4
  | .badField => 5
  | .badTarget => 6
  | .badPolicy => 7
  | .noRoom => 8
  | .inUse => 9
  | .notOwner => 10
  | .busy => 11
  | .locked => 12
  | .noLease => 13
  | .leaseHeld => 14
  | .staleIndex => 15
  | .badIndex => 16
  | .empty => 17
  | .already => 18
  | .badTrigger => 19
  | .unknownCommand => 31

/-- §11.4. -/
def SlotState.code : SlotState → Nat
  | .idle => 0
  | .armed => 1
  | .due => 2
  | .stalled => 3
  | .running => 4
  | .draining _ => 5

/-- §11.7. -/
def EndOutcome.code : EndOutcome → Nat
  | .completed => 0
  | .completedDespiteCancel => 1
  | .cancelled => 2
  | .overrun => 3
  | .converterFault => 4

/-- §11.5. -/
def CalSource.code : CalSource → Nat
  | .raw => 0
  | .default => 1
  | .loading => 2
  | .factory => 3
  | .field => 4
  | .provisional => 5

/-- §11.9. -/
def CommittedSource.code : CommittedSource → Nat
  | .loading => 0
  | .default => 1
  | .factory => 2
  | .field => 3

/-- The cal-source flag of a copy calibrated with a committed part (R94). -/
def CommittedSource.flag : CommittedSource → CalSource
  | .loading => .loading
  | .default => .default
  | .factory => .factory
  | .field => .field

/-- §11.3. -/
def TimeoutState.code : TimeoutState → Nat
  | .held => 0
  | .counting => 1
  | .expired => 2

/-- §11.9. -/
def Link.code : Link → Nat
  | .ready => 0
  | .faulted => 1
  | .restarting => 2

/-- §11.9. -/
def TimerState.code : TimerState → Nat
  | .free => 0
  | .held _ => 1
  | .running _ => 2
  | .orphanedRunning => 3
  | .orphanedStopped => 4

/-- The owner of a timer, present in HELD and RUNNING (R28). -/
def TimerState.owner : TimerState → Option Port
  | .held p => some p
  | .running p => some p
  | _ => none

/-- Whether a timer counts (R28). -/
def TimerState.counting : TimerState → Bool
  | .running _ => true
  | .orphanedRunning => true
  | _ => false

/-- §11.9. -/
def EdgeSetting.code : EdgeSetting → Nat
  | .rising => 0
  | .falling => 1
  | .both => 2

/-- §11.9. -/
def Debounce.code : Debounce → Nat
  | .none => 0
  | .us4 => 1
  | .us64 => 2
  | .ms1 => 3

/-- §11.9. -/
def StoreRecord.code : StoreRecord → Nat
  | .unwritten => 0
  | .valid _ => 1
  | .invalid => 2

/-- §11.9: 0 LOADING, 1 IDLE, 2 READING, 3 WRITING_FIELD, 4 WRITING_FACTORY. -/
def StoreOp.code : StoreOp → Nat
  | .loading _ => 0
  | .idle => 1
  | .reading _ => 2
  | .writingField _ _ => 3
  | .writingFactory _ _ => 4

/-- The channel that the operation concerns; in IDLE it is shown as 0 (R110). -/
def StoreOp.channel : StoreOp → Channel
  | .loading ch => ch
  | .idle => 0
  | .reading ch => ch
  | .writingField ch _ => ch
  | .writingFactory ch _ => ch

end Sys2Proof.Machine
end

