-- ==== Sys2Proof/Machine/Ops.lean ====
section
/-! DEFINITION. The named operations that read and write the state's parts, and the operations that every family
shares: raising an event, taking a data word of a frame, answering a command. -/
namespace Sys2Proof.Machine

/-! ### Tables of a fixed length -/

/-- Entry `i` of a table. -/
def tget (v : Vector α n) (i : Fin n) : α := v[i.val]

/-- The table with entry `i` replaced. -/
def tset (v : Vector α n) (i : Fin n) (x : α) : Vector α n := v.set i.val x

/-- The table with entry `i` updated. -/
def tupd (v : Vector α n) (i : Fin n) (f : α → α) : Vector α n := tset v i (f (tget v i))

/-- A channel as the index of a table of 32. -/
def channelIndex (ch : Channel) : Fin 32 := ⟨ch.toNat, ch.isLt⟩

/-! ### Parts of the state -/

/-- A port of the three. -/
def Ports.port (ps : Ports) : Port → PortState
  | .a => ps.a
  | .b => ps.b
  | .c => ps.c

/-- The ports with one replaced. -/
def Ports.set (ps : Ports) (p : Port) (x : PortState) : Ports :=
  match p with
  | .a => { ps with a := x }
  | .b => { ps with b := x }
  | .c => { ps with c := x }

/-- Port `p`. -/
def State.port (s : State) (p : Port) : PortState := s.ports.port p

/-- Updates port `p`. -/
def State.updPort (p : Port) (f : PortState → PortState) (s : State) : State :=
  { s with ports := s.ports.set p (f (s.port p)) }

/-- Request slot `i`. -/
def State.slot (s : State) (i : SlotId) : Slot := tget s.slots i

/-- Updates request slot `i`. -/
def State.updSlot (i : SlotId) (f : Slot → Slot) (s : State) : State := { s with slots := tupd s.slots i f }

/-- Updates the counters of slot `i`. -/
def State.updCounters (i : SlotId) (f : Counters → Counters) (s : State) : State :=
  s.updSlot i fun x => { x with counters := f x.counters }

/-- Pacing timer `n`. -/
def State.timer (s : State) (n : Fin 4) : Timer := tget s.timers n

/-- Updates pacing timer `n`. -/
def State.updTimer (n : Fin 4) (f : Timer → Timer) (s : State) : State := { s with timers := tupd s.timers n f }

/-- Trigger line `n`. -/
def State.line (s : State) (n : Fin 4) : Line := tget s.lines n

/-- Updates trigger line `n`. -/
def State.updLine (n : Fin 4) (f : Line → Line) (s : State) : State := { s with lines := tupd s.lines n f }

/-- The working coefficient entry of a channel (R91). -/
def State.calEntry (s : State) (ch : Channel) : CalEntry := tget s.cal.table (channelIndex ch)

/-- Updates the working coefficient entry of a channel. -/
def State.updCalEntry (ch : Channel) (f : CalEntry → CalEntry) (s : State) : State :=
  { s with cal := { s.cal with table := tupd s.cal.table (channelIndex ch) f } }

/-- The field record of a channel (R108). -/
def State.fieldRecord (s : State) (ch : Channel) : StoreRecord := tget s.store.fieldRecords (channelIndex ch)

/-- The factory record of a channel (R108). -/
def State.factoryRecord (s : State) (ch : Channel) : StoreRecord := tget s.store.factoryRecords (channelIndex ch)

/-- Writes the field record of a channel. -/
def State.setFieldRecord (ch : Channel) (r : StoreRecord) (s : State) : State :=
  { s with store := { s.store with fieldRecords := tset s.store.fieldRecords (channelIndex ch) r } }

/-- Writes the factory record of a channel. -/
def State.setFactoryRecord (ch : Channel) (r : StoreRecord) (s : State) : State :=
  { s with store := { s.store with factoryRecords := tset s.store.factoryRecords (channelIndex ch) r } }

/-- One more free value has been used. -/
def State.countFree (s : State) : State := { s with freeCount := s.freeCount + 1 }

/-! ### Views -/

/-- The timestamp counter: microseconds since the last device reset ended, modulo 2^32 (R74). -/
def State.timestamp (s : State) : DWord := BitVec.ofNat 32 s.now

/-- The due list: the slots that are DUE (R41, R43). -/
def State.dueList (s : State) : List SlotId := allSlots.filter fun i => (s.slot i).state == .due

/-- The sizes of a port's queues together. -/
def PortState.poolShare (ps : PortState) : Nat := ps.config.q0.size.toNat + ps.config.q1.size.toNat

/-- The pool share that a port holds: that of its queues while it is OPEN (R142). -/
def PortState.poolHeld (ps : PortState) : Nat := if ps.mode = .opened then ps.poolShare else 0

/-- The pool's total use (R142). -/
def State.poolUse (s : State) : Nat := (s.port .a).poolHeld + (s.port .b).poolHeld + (s.port .c).poolHeld

/-- The level of nIRQx: high while a device reset lasts (R150), else as R152 says. -/
def State.irqHigh (s : State) (p : Port) : Bool := s.inReset || (s.port p).irqHigh

/-- Whether the port's data output is driven: not while nCS is high, and not while a device reset lasts (R143, R150). A
frame that the port ignores under its reset line is driven: reads in it return 0 (R149). From the header's end on: that the
output is not driven during the header itself is a DESIGN CHOICE, notes/assumptions/37.md. -/
def State.misoDriven (s : State) (p : Port) : Bool := !s.inReset && (s.port p).frame.isSome

/-! ### Events -/

/-- An event is raised at port `p` (R151). -/
def State.raise (p : Port) (e : Event) (s : State) : State := s.updPort p (PortState.raise e)

/-- An event is raised at A, B and C regardless of their state (00_scope.md, "Events"). -/
def State.raiseAll (e : Event) (s : State) : State := ((s.raise .a e).raise .b e).raise .c e

/-! ### Data words of a frame (R143, R144) -/

/-- What a written data word reaches, by its address (R144, §11.2). -/
inductive WordKind
  | configuration | slotField | eventFlag | eventEnable | watched | parameter | command
  /-- A read-only or unassigned word. -/
  | passive
  deriving DecidableEq, Repr

/-- The kind of the word at an address (R144, chapter 11). -/
def wordKind (a : BitVec 12) : WordKind :=
  let n := a.toNat
  if 0x001 ≤ n ∧ n ≤ 0x008 then .configuration
  else if 0x010 ≤ n ∧ n ≤ 0x011 then .eventFlag
  else if 0x012 ≤ n ∧ n ≤ 0x013 then .eventEnable
  else if 0x018 ≤ n ∧ n ≤ 0x01B then .parameter
  else if n = 0x01C then .command
  else if 0x100 ≤ n ∧ n ≤ 0x1FF then (if n % 32 < 20 then .slotField else .passive)
  else if 0x200 ≤ n ∧ n ≤ 0x220 then .configuration
  else if 0x980 ≤ n ∧ n ≤ 0x981 then .watched
  else .passive

/-- The frame's address advances by one after a data word, from 4095 to 0 (R143). -/
def PortState.advanceFrame (ps : PortState) : PortState :=
  { ps with frame := ps.frame.map fun f => { f with address := f.address + 1 } }

/-- The address of the next data word of port `p`, if a write frame that the port does not ignore is in progress there and
that word is of kind `k`: only then is a data word of that kind taken (R143, R144, R149). -/
def State.writeAddress (s : State) (p : Port) (k : WordKind) : Option (BitVec 12) :=
  match (s.port p).frame with
  | some f => if f.write && !f.ignored && wordKind f.address == k then some f.address else none
  | none => none

/-- Takes a data word of kind `k` at port `p`; where none can arrive, nothing happens (notes/assumptions/3.md). -/
def State.takeWord (p : Port) (k : WordKind) (body : BitVec 12 → State → State) (s : State) : State :=
  match s.writeAddress p k with
  | some a => (body a s).updPort p PortState.advanceFrame
  | none => s

/-! ### Commands (R145) -/

/-- Writes the answer of a command into the result word; the count rises by one at every command, from 255 to 0. -/
def PortState.answer (command : BitVec 5) (code : ResultCode) (ps : PortState) : PortState :=
  { ps with result := { code := code, command := command, count := ps.result.count + 1 } }

/-- Issues a command: its code is written to the command word of port `p`, `body` does it and says its answer, and
`recorded` is the command code recorded with the answer. -/
def State.issue (p : Port) (code : Word) (recorded : BitVec 5) (body : State → State × ResultCode) (s : State) : State :=
  s.takeWord p .command (fun _ s =>
    let s := s.updPort p fun ps => { ps with commandWord := code }
    let (s, r) := body s
    s.updPort p (PortState.answer recorded r)) 

/-- Takes the command with the code `n` of §11.3 (1 to 23). -/
def State.command (p : Port) (n : Nat) (body : State → State × ResultCode) (s : State) : State :=
  s.issue p (BitVec.ofNat 16 n) (BitVec.ofNat 5 n) body

/-- Every command except OPEN, RESET_PORT and POP_COMPLETION first checks that the issuing port is OPEN (R145). -/
def State.whenOpen (p : Port) (body : State → State × ResultCode) (s : State) : State × ResultCode :=
  if (s.port p).mode = .opened then body s else (s, .closed)

/-- A parameter word of port `p`, 0 to 3. -/
def State.param (s : State) (p : Port) (k : Fin 4) : Word :=
  match k with
  | 0 => (s.port p).params.p0
  | 1 => (s.port p).params.p1
  | 2 => (s.port p).params.p2
  | 3 => (s.port p).params.p3

end Sys2Proof.Machine
end

