-- ==== Sys2Proof/Machine/SampleMemory.lean ====
section
/-! DEFINITION. Sample Memory (chapter 9): the rings, the queue timeout counter and the latest-value slots of one port.
The commands that act on them alone stand in Queues.lean. -/
namespace Sys2Proof.Machine

/-! ### Queues -/

/-- The configuration of a queue. -/
def PortState.queueConfig (ps : PortState) : QueueId → QueueConfig
  | .q0 => ps.config.q0
  | .q1 => ps.config.q1

/-- The size of a queue (R130). -/
def PortState.queueSize (ps : PortState) (q : QueueId) : Nat := (ps.queueConfig q).size.toNat

/-- Whether a queue is in OVERWRITE mode (R130, §11.3). -/
def PortState.overwrites (ps : PortState) (q : QueueId) : Bool := (ps.queueConfig q).mode == 1

/-- The ring of a queue. -/
def PortState.ring (ps : PortState) : QueueId → Ring
  | .q0 => ps.ring0
  | .q1 => ps.ring1

/-- Updates the ring of a queue. -/
def PortState.updRing (q : QueueId) (f : Ring → Ring) (ps : PortState) : PortState :=
  match q with
  | .q0 => { ps with ring0 := f ps.ring0 }
  | .q1 => { ps with ring1 := f ps.ring1 }

/-- The room of a queue: size − fill − reserved (R131). -/
def PortState.room (ps : PortState) (q : QueueId) : Nat :=
  ps.queueSize q - (ps.ring q).fill - (ps.ring q).reserved

/-- The element number of the oldest entry (R131). -/
def Ring.oldest (r : Ring) : Word := r.nextNumber - BitVec.ofNat 16 r.fill

/-- A ring index advanced by one, going from size − 1 to 0 (R132). -/
def nextIndex (size i : Nat) : Nat := if i + 1 < size then i + 1 else 0

/-- Writes position `i` of a ring. -/
def Ring.setPosition (i : Nat) (x : Position) (r : Ring) : Ring :=
  if h : i < 64 then { r with positions := r.positions.set i x } else r

/-- Qn_WATERMARK (R132). -/
def watermarkEvent : QueueId → Event
  | .q0 => .q0Watermark
  | .q1 => .q1Watermark

/-- Qn_FULL (R132). -/
def fullEvent : QueueId → Event
  | .q0 => .q0Full
  | .q1 => .q1Full

/-- Qn_LOST (R120, R126, R127, R133). -/
def lostEvent : QueueId → Event
  | .q0 => .q0Lost
  | .q1 => .q1Lost

/-- Raises an event if a condition holds. -/
def PortState.raiseIf (c : Bool) (e : Event) (ps : PortState) : PortState := if c then ps.raise e else ps

/-! ### The queue timeout counter (R138) -/

/-- Whether a queue is the source of the port's queue timeout counter (R130, §11.3). -/
def PortState.isTimeoutSource (ps : PortState) (q : QueueId) : Bool :=
  match q with
  | .q0 => ps.config.timeoutSource == 1
  | .q1 => ps.config.timeoutSource == 2

/-- HELD at the preset. -/
def PortState.presetTimeout (ps : PortState) : PortState :=
  { ps with timeout := { value := ps.config.timeoutPreset.toNat, state := .held, elapsed := 0 } }

/-- The counter is preset if queue `q`, which has become empty, is its source. -/
def PortState.sourceEmptied (q : QueueId) (ps : PortState) : PortState :=
  if ps.isTimeoutSource q then ps.presetTimeout else ps

/-- COUNTING from the preset, if queue `q`, whose fill has risen from 0 to 1, is the source and the counter is HELD. -/
def PortState.startTimeout (q : QueueId) (ps : PortState) : PortState :=
  if ps.isTimeoutSource q && ps.timeout.state == .held then
    { ps with timeout := { value := ps.config.timeoutPreset.toNat, state := .counting, elapsed := 0 } }
  else ps

/-! ### Stores -/

/-- A store into a queue that is not full (R132). `reserved` says that it is a STALL own store, which turns one
reserved place into one filled place. -/
def PortState.append (q : QueueId) (reserved : Bool) (rec : SampleRecord) (ps : PortState) : PortState :=
  let size := ps.queueSize q
  let fill := (ps.ring q).fill + 1
  let watermark := (ps.queueConfig q).watermark.toNat
  let ps := ps.updRing q fun r =>
    let r := r.setPosition r.put ⟨r.nextNumber, rec⟩
    { r with put := nextIndex size r.put, nextNumber := r.nextNumber + 1, fill := fill
             reserved := if reserved then r.reserved - 1 else r.reserved }
  let ps := ps.raiseIf (watermark != 0 && fill == watermark) (watermarkEvent q)
  let ps := ps.raiseIf (fill == size) (fullEvent q)
  if fill = 1 then ps.startTimeout q else ps

/-- A store into a full queue in OVERWRITE mode replaces the oldest entry (R133). -/
def PortState.overwriteOldest (q : QueueId) (rec : SampleRecord) (ps : PortState) : PortState :=
  let size := ps.queueSize q
  let ps := ps.updRing q fun r =>
    let r := r.setPosition r.get ⟨r.nextNumber, rec⟩
    { r with put := nextIndex size r.put, get := nextIndex size r.get, nextNumber := r.nextNumber + 1
             overwritten := min (r.overwritten + 1) Config.overwrittenLimit }
  ps.raise (lostEvent q)

/-- A store that holds no reservation: a DROP own store (R120) or a shared store (R126). The Bool says whether the
sample was stored. -/
def PortState.storeUnreserved (q : QueueId) (rec : SampleRecord) (ps : PortState) : PortState × Bool :=
  if ps.queueSize q = 0 then (ps.raise (lostEvent q), false)
  else if ps.overwrites q then
    if (ps.ring q).fill < ps.queueSize q then (ps.append q false rec, true) else (ps.overwriteOldest q rec, true)
  else if 0 < ps.room q then (ps.append q false rec, true)
  else (ps.raise (lostEvent q), false)

/-- A STALL own store consumes one place of its sweep's reservation (R120). The reservation holds the place; in a
state where the ring is full all the same, which no run reaches, nothing is stored (notes/assumptions/24.md). -/
def PortState.storeReserved (q : QueueId) (rec : SampleRecord) (ps : PortState) : PortState × Bool :=
  if (ps.ring q).fill < ps.queueSize q then (ps.append q true rec, true) else (ps, false)

/-- A store into a latest-value slot, made only when its New Data is clear (R128, R140). -/
def PortState.storeSlot (n : Fin 16) (rec : SampleRecord) (ps : PortState) : PortState × Bool :=
  if (tget ps.latest n).newData then (ps, false)
  else ({ ps with latest := tset ps.latest n ⟨rec, true⟩ }.raise .slotNew, true)

/-! ### Emptying -/

/-- A queue is emptied (R136). -/
def PortState.emptyQueue (q : QueueId) (ps : PortState) : PortState :=
  (ps.updRing q fun _ => Ring.empty).sourceEmptied q

/-- Both queues are emptied, and New Data and the records of the sixteen slots are cleared (R136, R140). -/
def PortState.emptySamples (ps : PortState) : PortState :=
  let ps := (ps.emptyQueue .q0).emptyQueue .q1
  { ps with latest := Vector.replicate 16 LatestSlot.empty }

/-! ### Acknowledgement and release -/

/-- The answer of ACK_QUEUE for a queue and an element number (R135). -/
def PortState.ackAnswer (ps : PortState) (q : QueueId) (number : Word) : ResultCode :=
  let r := ps.ring q
  let behind := (r.oldest - number).toNat
  if (number - r.oldest).toNat < r.fill then .ok
  else if ps.overwrites q && 1 ≤ behind && behind ≤ r.overwritten then .staleIndex
  else .badIndex

/-- The entries from the oldest through the one named leave the queue (R135). -/
def PortState.acknowledge (q : QueueId) (number : Word) (ps : PortState) : PortState :=
  let size := ps.queueSize q
  let leaving := (number - (ps.ring q).oldest).toNat + 1
  let ps := ps.updRing q fun r =>
    { r with get := (r.get + leaving) % size, fill := r.fill - leaving, overwritten := 0 }
  if (ps.ring q).fill = 0 then ps.sourceEmptied q else ps

/-- New Data is cleared on every named slot; bit n of `set` is slot n (R141). -/
def PortState.releaseLatest (set : Word) (ps : PortState) : PortState :=
  (List.finRange 16).foldl (fun ps n =>
    if set.getLsbD n.val then { ps with latest := tupd ps.latest n fun x => { x with newData := false } } else ps) ps

/-! ### The counter's events -/

/-- Every 100 µs in COUNTING the value falls by one (R138). -/
def PortState.timeoutTickDue (ps : PortState) : Bool :=
  ps.timeout.state == .counting && Config.timeoutUnit ≤ ps.timeout.elapsed && 0 < ps.timeout.value

/-- The value has reached 0 in COUNTING (R138). -/
def PortState.timeoutExpiryDue (ps : PortState) : Bool :=
  ps.timeout.state == .counting && ps.timeout.value == 0

/-- One unit of the queue timeout counter. -/
def PortState.timeoutTick (ps : PortState) : PortState :=
  if ps.timeoutTickDue then
    { ps with timeout := { ps.timeout with value := ps.timeout.value - 1
                                           elapsed := ps.timeout.elapsed - Config.timeoutUnit } }
  else ps

/-- The expiry of the queue timeout counter. -/
def PortState.timeoutExpiry (ps : PortState) : PortState :=
  if ps.timeoutExpiryDue then { ps with timeout := { ps.timeout with state := .expired } }.raise .queueTimeout else ps

end Sys2Proof.Machine
end

