-- ==== Sys2Proof/Machine/View.lean ====
section
/-! DEFINITION. The words that a master reads (R1, R22, R75, R137, R143, R144, R153, chapter 11). Reading a word changes
nothing in the part, so every word is a function of the state. -/
namespace Sys2Proof.Machine

/-! ### Packing fields into words -/

/-- A field placed at bit `low` of a word. -/
def putBits (low : Nat) (x : BitVec n) : Word := x.setWidth 16 <<< low

/-- A number as a word. -/
def numWord (n : Nat) : Word := BitVec.ofNat 16 n

/-- A number placed at bit `low` of a word. -/
def putNum (low n : Nat) : Word := numWord n <<< low

/-- A one-bit field at bit `low` of a word. -/
def putBool (low : Nat) (b : Bool) : Word := if b then 1 <<< low else 0

/-- Word `half` (0 low, 1 high) of a 32-bit quantity. -/
def halfWord (d : DWord) (half : Nat) : Word := if half = 0 then d.low else d.high

/-! ### Request slots (§11.4) -/

/-- Words 0 to 19 of a slot: its writable fields. -/
def SlotFields.word (f : SlotFields) (w : Nat) : Word :=
  if w = 0 then putBits 0 f.tag ||| putBits 8 f.priority
  else if w = 1 then putBits 0 f.scanLength ||| putBits 8 f.source ||| putBool 12 f.strict ||| putBool 13 f.share |||
    putBool 14 f.raw
  else if w = 2 then f.sweepCount
  else if w = 3 then putBits 0 f.target ||| putBits 4 f.base ||| putBits 12 f.policy
  else let e := f.entryAt (w - 4); putBits 0 e.channel ||| putBits 8 e.extension ||| putBits 12 e.count

/-- Word `w` (0-9) of the five counters, two words each, in the order of R4. -/
def Counters.word (c : Counters) (w : Nat) : Word :=
  if w < 2 then halfWord c.sweepsDone w
  else if w < 4 then halfWord c.entriesProduced (w - 2)
  else if w < 6 then halfWord c.samplesDelivered (w - 4)
  else if w < 8 then halfWord c.samplesLost (w - 6)
  else halfWord c.triggersMissed (w - 8)

/-- Word `w` (0-31) of a slot. -/
def Slot.word (x : Slot) (w : Nat) : Word :=
  if w < 20 then x.fields.word w
  else if w = 20 then putNum 0 x.state.code ||| putBool 4 x.pendingTrigger ||| putNum 8 x.passedOver
  else if w = 21 then x.dueStamp
  else x.counters.word (w - 22)

/-! ### Records (§11.5, §11.7) -/

/-- Word `w` (0-5) of a sample record. -/
def SampleRecord.word (r : SampleRecord) (w : Nat) : Word :=
  if w = 0 then r.value
  else if w = 1 then putBits 0 r.channel ||| putBits 5 r.entry ||| putNum 9 r.slot.val |||
    putNum 14 (portCode r.sourcePort)
  else if w = 2 then putBits 0 r.tag ||| putBool 8 r.overRange ||| putBool 9 r.clamp ||| putBool 10 r.shared |||
    putBool 11 r.urgent ||| putNum 12 r.calSource.code
  else if w = 3 then r.sweepIndex
  else if w = 4 then r.timestamp.low
  else if w = 5 then r.timestamp.high
  else 0

/-- Word `w` (0-7) of a queue position: the element number, then the record; word 7 is unassigned. -/
def Position.word (x : Position) (w : Nat) : Word := if w = 0 then x.number else x.record.word (w - 1)

/-- Word `w` (0-15) of a completion record; words 14 and 15 are unassigned. -/
def CompletionRecord.word (r : CompletionRecord) (w : Nat) : Word :=
  if w = 0 then putNum 0 r.slot.val ||| putNum 8 r.outcome.code
  else if w = 1 then putBits 0 r.tag
  else if w < 12 then r.counters.word (w - 2)
  else if w = 12 then r.endTime.low
  else if w = 13 then r.endTime.high
  else 0

/-! ### Filter elements (§11.6) -/

/-- Word 0 or 1 of a filter element. -/
def FilterElement.word (f : FilterElement) (w : Nat) : Word :=
  if w = 0 then putBits 0 f.action ||| putBits 4 f.slot ||| putBits 8 f.sources ||| putBits 12 f.kind |||
    putBool 15 f.enabled
  else putBits 0 f.first ||| putBits 8 f.second

/-! ### Regions of the window (§11.2, §11.3) -/

/-- The control and status region, 0x000-0x00A. -/
def PortState.controlWord (p : Port) (ps : PortState) (n : Nat) : Word :=
  if n = 0 then putBool 0 (ps.mode == .opened) ||| putNum 8 (portCode p)
  else if n = 1 then ps.config.q0.size
  else if n = 2 then ps.config.q0.mode
  else if n = 3 then ps.config.q0.watermark
  else if n = 4 then ps.config.q1.size
  else if n = 5 then ps.config.q1.mode
  else if n = 6 then ps.config.q1.watermark
  else if n = 7 then ps.config.timeoutSource
  else if n = 8 then ps.config.timeoutPreset
  else if n = 9 then numWord ps.timeout.value
  else if n = 10 then putNum 0 ps.timeout.state.code
  else 0

/-- The command and result region, 0x018-0x01E. What the command word reads as: DEDUCED, notes/assumptions/12.md. -/
def PortState.commandRegion (ps : PortState) (n : Nat) : Word :=
  if n = 0x18 then ps.params.p0
  else if n = 0x19 then ps.params.p1
  else if n = 0x1A then ps.params.p2
  else if n = 0x1B then ps.params.p3
  else if n = 0x1C then ps.commandWord
  else if n = 0x1D then putBits 0 ps.result.code.code ||| putBits 8 ps.result.count
  else putBits 0 ps.result.command

/-- The six state words of a queue. -/
def Ring.stateWord (r : Ring) (k : Nat) : Word :=
  if k = 0 then numWord r.put
  else if k = 1 then numWord r.get
  else if k = 2 then numWord r.fill
  else if k = 3 then numWord r.reserved
  else if k = 4 then r.nextNumber
  else if k = 5 then numWord r.overwritten
  else 0

/-- Position `i` of a queue as it reads: positions beyond size − 1 read as 0 (R137). -/
def PortState.positionWord (ps : PortState) (q : QueueId) (i w : Nat) : Word :=
  if h : i < 64 then (if i < ps.queueSize q then (ps.ring q).positions[i].word w else 0) else 0

/-- The New Data marks, bit n for slot n. -/
def PortState.newDataWord (ps : PortState) : Word :=
  (List.finRange 16).foldl (fun v n => v ||| putBool n.val (tget ps.latest n).newData) 0

/-- The latest-value slots, 0x240-0x2BF. -/
def PortState.latestWord (ps : PortState) (i w : Nat) : Word :=
  if h : i < 16 then ps.latest[i].record.word w else 0

/-- The filter list, 0x200-0x21F. -/
def PortState.filterWord (ps : PortState) (i w : Nat) : Word := if h : i < 16 then ps.filters[i].word w else 0

/-- The completion queue's positions, 0x810-0x90F: those from the count onward read as 0 (R22). -/
def PortState.completionWord (ps : PortState) (i w : Nat) : Word :=
  match ps.completions[i]? with
  | some r => r.word w
  | none => 0

/-- The port's slots, 0x100-0x1FF, in slot-number order (R1). -/
def State.slotWord (s : State) (p : Port) (k w : Nat) : Word :=
  if h : 8 * portCode p + k < 24 then (s.slot ⟨8 * portCode p + k, h⟩).word w else 0

/-- The lease's remaining time in milliseconds, rounded up (R96). -/
def Lease.remainingMs (l : Lease) : Nat := (l.remaining + 999) / 1000

/-- The shared view of a timer, 0xA10 + 8n (§11.9). -/
def Timer.word (t : Timer) (w : Nat) : Word :=
  if w = 0 then putNum 0 t.state.code ||| putNum 8 (ownerCode t.state.owner)
  else if w = 1 then numWord t.prescale
  else if w = 2 then numWord t.period
  else if w = 3 then numWord t.count
  else if w = 4 then numWord t.refs
  else 0

/-- The shared view of a line, 0xA30 + n (§11.9). -/
def Line.word (l : Line) : Word :=
  putNum 0 l.edge.code ||| putNum 4 l.debounce.code ||| putBool 8 l.level ||| putBool 9 l.candidate.isSome

/-- The coefficient view of a channel, 0xB00 + 8 × channel (§11.9). -/
def State.coefficientWord (s : State) (ch : Channel) (w : Nat) : Word :=
  let e := s.calEntry ch
  if w = 0 then e.committed.offset
  else if w = 1 then e.committed.gain
  else if w = 2 then putNum 0 e.source.code ||| putBool 4 e.provisional.isSome ||| putBool 5 e.commitPending |||
    putNum 8 (s.fieldRecord ch).code ||| putNum 10 (s.factoryRecord ch).code
  else if w = 3 then (match e.provisional with | some c => c.offset | none => 0)
  else if w = 4 then (match e.provisional with | some c => c.gain | none => 0)
  else 0

/-- The general words of the shared view, 0xA00-0xA33 (§11.9). -/
def State.sharedWord (s : State) (n : Nat) : Word :=
  if n = 0xA00 then putNum 0 s.seq.link.code
  else if n = 0xA01 then putNum 0 s.dueList.length ||| putNum 8 (portCode s.arbiter.lastGranted)
  else if n = 0xA02 then s.timestamp.low
  else if n = 0xA03 then s.timestamp.high
  else if n = 0xA04 then putBool 0 ((s.port .a).mode == .opened) ||| putBool 1 ((s.port .b).mode == .opened) |||
    putBool 2 ((s.port .c).mode == .opened)
  else if n = 0xA05 then numWord s.poolUse
  else if n = 0xA06 then putNum 0 (ownerCode s.cal.lease.holder)
  else if n = 0xA07 then numWord s.cal.lease.remainingMs
  else if n = 0xA08 then putNum 0 s.store.op.code ||| putBits 8 s.store.op.channel
  else if h : 0xA10 ≤ n ∧ n < 0xA30 then (s.timer ⟨(n - 0xA10) / 8, by omega⟩).word (n % 8)
  else if h : 0xA30 ≤ n ∧ n < 0xA34 then (s.line ⟨n - 0xA30, by omega⟩).word
  else 0

/-- The word at an address of port `p`'s window as it stands (§11.2). An unassigned address reads 0 (R144). -/
def State.windowWord (s : State) (p : Port) (a : BitVec 12) : Word :=
  let ps := s.port p
  let n := a.toNat
  if n ≤ 0x00A then ps.controlWord p n
  else if n = 0x010 then eventWord false ps.flags
  else if n = 0x011 then eventWord true ps.flags
  else if n = 0x012 then eventWord false ps.enables
  else if n = 0x013 then eventWord true ps.enables
  else if 0x018 ≤ n ∧ n ≤ 0x01E then ps.commandRegion n
  else if 0x100 ≤ n ∧ n ≤ 0x1FF then s.slotWord p ((n - 0x100) / 32) (n % 32)
  else if 0x200 ≤ n ∧ n ≤ 0x21F then ps.filterWord ((n - 0x200) / 2) (n % 2)
  else if n = 0x220 then putBits 0 ps.unmatched
  else if 0x240 ≤ n ∧ n ≤ 0x2BF then ps.latestWord ((n - 0x240) / 8) (n % 8)
  else if n = 0x2C0 then ps.newDataWord
  else if 0x300 ≤ n ∧ n ≤ 0x305 then ps.ring0.stateWord (n - 0x300)
  else if 0x308 ≤ n ∧ n ≤ 0x30D then ps.ring1.stateWord (n - 0x308)
  else if 0x400 ≤ n ∧ n ≤ 0x5FF then ps.positionWord .q0 ((n - 0x400) / 8) (n % 8)
  else if 0x600 ≤ n ∧ n ≤ 0x7FF then ps.positionWord .q1 ((n - 0x600) / 8) (n % 8)
  else if n = 0x800 then numWord ps.completions.length
  else if 0x810 ≤ n ∧ n ≤ 0x90F then ps.completionWord ((n - 0x810) / 16) (n % 16)
  else if n = 0x980 then ps.watched.setWidth 16
  else if n = 0x981 then (ps.watched >>> 16).setWidth 16
  else if 0xA00 ≤ n ∧ n ≤ 0xA33 then s.sharedWord n
  else if 0xB00 ≤ n ∧ n ≤ 0xBFF then s.coefficientWord (BitVec.ofNat 5 ((n - 0xB00) / 8)) (n % 8)
  else 0

/-- The word that a read frame captured for an address, if any. -/
def PortState.captured (ps : PortState) (a : BitVec 12) : Option Word :=
  match ps.frame with
  | some f => (f.captures.find? fun c => c.address == a).map fun c => c.word
  | none => none

/-- What a read of an address returns in the frame in progress: the word captured for it in this frame, else the word as
it stands (R75, R137, R140, R153). While the port's reset line is low, and in a frame that the port ignores, reads return 0
(R149). -/
def State.readWord (s : State) (p : Port) (a : BitVec 12) : Word :=
  if (s.port p).lineLow || (s.port p).frame.any (fun f => f.ignored) then 0 else ((s.port p).captured a).getD (s.windowWord p a)

end Sys2Proof.Machine
end

