-- ==== Sys2Proof/Machine/Frames.lean ====
section
/-! DEFINITION. The words of a frame (R143, R144, R153): FRAME_HEADER, FRAME_END, the written data words, and the reads
that capture. -/
namespace Sys2Proof.Machine

/-! ### Frames -/

/-- The frame that a header begins: bit 15 is the direction, bits 11-0 the starting word address (R143). It is ignored to
its end if the port's reset line is low (R149). -/
def headerFrame (ignored : Bool) (header : Word) : Frame :=
  { write := header.getLsbD 15, address := header.setWidth 12, captures := [], ignored := ignored }

/-- FRAME_HEADER (R143). Within a frame a further word is a data word, not a header. While a device reset lasts no frame
begins (R150); while the port's reset line is low the port ignores the frame (R149). -/
def execFrameHeader (p : Port) (header : Word) (s : State) : Host.Outcome State Fault Refusal :=
  .next (if !s.inReset && (s.port p).frame.isNone then
    s.updPort p fun ps => { ps with frame := some (headerFrame ps.lineLow header) } else s)

/-- FRAME_END (R143): the frame ends; a word received in part is discarded. -/
def execFrameEnd (p : Port) (s : State) : Host.Outcome State Fault Refusal :=
  .next (s.updPort p fun ps => { ps with frame := none, lineCut := none })

/-! ### Written data words -/

/-- A parameter word, 0x018-0x01B (§11.3). -/
def Params.write (a : BitVec 12) (v : Word) (x : Params) : Params :=
  if a = 0x018 then { x with p0 := v }
  else if a = 0x019 then { x with p1 := v }
  else if a = 0x01A then { x with p2 := v }
  else if a = 0x01B then { x with p3 := v }
  else x

/-- WRITE_WORD (R144): a parameter word is stored; a read-only or unassigned word is ignored and nothing is raised. -/
def execWriteWord (p : Port) (value : Word) (s : State) : Host.Outcome State Fault Refusal :=
  .next (match s.writeAddress p .parameter with
    | some _ => s.takeWord p .parameter fun a s => s.updPort p fun ps => { ps with params := ps.params.write a value }
    | none => s.takeWord p .passive fun _ s => s)

/-- The slot whose word stands at an address of port `p`'s slot region (R1, §11.2). -/
def slotAt (p : Port) (a : BitVec 12) : Option SlotId :=
  let k := (a.toNat - 0x100) / 32
  if h : 8 * portCode p + k < 24 then some ⟨8 * portCode p + k, h⟩ else none

/-- A writable word of a slot, 0-19, stored as written (R3, §11.4): bits outside every field are ignored (R153). -/
def SlotFields.write (w : Nat) (v : Word) (f : SlotFields) : SlotFields :=
  if w = 0 then { f with tag := v.extractLsb' 0 8, priority := v.extractLsb' 8 5 }
  else if w = 1 then
    { f with scanLength := v.extractLsb' 0 5, source := v.extractLsb' 8 4, strict := v.getLsbD 12
             share := v.getLsbD 13, raw := v.getLsbD 14 }
  else if w = 2 then { f with sweepCount := v }
  else if w = 3 then
    { f with target := v.extractLsb' 0 3, base := v.extractLsb' 4 5, policy := v.extractLsb' 12 2 }
  else if h : w - 4 < 16 then
    { f with entries := f.entries.set (w - 4) ⟨v.extractLsb' 0 6, v.extractLsb' 8 4, v.extractLsb' 12 4⟩ }
  else f

/-- A write to a writable word of a slot: stored if the slot is IDLE, else discarded with WRITE_DISCARDED (R3). -/
def State.writeSlotWord (p : Port) (v : Word) (a : BitVec 12) (s : State) : State :=
  match slotAt p a with
  | some i =>
    if (s.slot i).state = .idle then s.updSlot i fun x => { x with fields := x.fields.write (a.toNat % 32) v }
    else s.raise p .writeDiscarded
  | none => s

/-- SLOT_FIELD_WRITE (R3). -/
def execSlotFieldWrite (p : Port) (value : Word) (s : State) : Host.Outcome State Fault Refusal :=
  .next (s.takeWord p .slotField (State.writeSlotWord p value))

/-- A filter element with one of its two words written (R124, §11.6). -/
def FilterElement.write (w : Nat) (v : Word) (f : FilterElement) : FilterElement :=
  if w = 0 then
    { f with action := v.extractLsb' 0 4, slot := v.extractLsb' 4 4, sources := v.extractLsb' 8 3
             kind := v.extractLsb' 12 2, enabled := v.getLsbD 15 }
  else { f with first := v.extractLsb' 0 8, second := v.extractLsb' 8 8 }

/-- The queue and timeout configuration words, 0x001-0x008, stored as written (R130, §11.3). -/
def PortConfig.write (a : BitVec 12) (v : Word) (c : PortConfig) : PortConfig :=
  if a = 0x001 then { c with q0 := { c.q0 with size := v } }
  else if a = 0x002 then { c with q0 := { c.q0 with mode := v } }
  else if a = 0x003 then { c with q0 := { c.q0 with watermark := v } }
  else if a = 0x004 then { c with q1 := { c.q1 with size := v } }
  else if a = 0x005 then { c with q1 := { c.q1 with mode := v } }
  else if a = 0x006 then { c with q1 := { c.q1 with watermark := v } }
  else if a = 0x007 then { c with timeoutSource := v }
  else if a = 0x008 then { c with timeoutPreset := v }
  else c

/-- A configuration word of any kind (R118, R130). -/
def PortState.writeConfiguration (a : BitVec 12) (v : Word) (ps : PortState) : PortState :=
  if a.toNat ≤ 0x008 then { ps with config := ps.config.write a v }
  else if a = 0x220 then { ps with unmatched := v.extractLsb' 0 2 }
  else
    let k := (a.toNat - 0x200) / 2
    if h : k < 16 then { ps with filters := tupd ps.filters ⟨k, h⟩ (FilterElement.write (a.toNat % 2) v) } else ps

/-- CONFIGURATION_WRITE (R144): stored while the port is CLOSED, discarded with WRITE_DISCARDED while it is OPEN. -/
def execConfigurationWrite (p : Port) (value : Word) (s : State) : Host.Outcome State Fault Refusal :=
  .next (s.takeWord p .configuration fun a s => s.updPort p fun ps =>
    if ps.mode = .closed then ps.writeConfiguration a value else ps.raise .writeDiscarded)

/-- EVENT_FLAG_WRITE (R151): each 1 clears its flag. Flag word 0 is at 0x010, flag word 1 at 0x011 (§11.8). -/
def execEventFlagWrite (p : Port) (value : Word) (s : State) : Host.Outcome State Fault Refusal :=
  .next (s.takeWord p .eventFlag fun a s => s.updPort p (PortState.clearFlags (a = 0x011) value))

/-- EVENT_ENABLE_WRITE (R152). Enable word 0 is at 0x012, enable word 1 at 0x013 (§11.8). -/
def execEventEnableWrite (p : Port) (value : Word) (s : State) : Host.Outcome State Fault Refusal :=
  .next (s.takeWord p .eventEnable fun a s => s.updPort p (PortState.writeEnables (a = 0x013) value))

/-- The channels that a watched-channel word names: bit n of 0x980 is channel n, of 0x981 channel 16 + n (§11.2). -/
def watchedBits (second : Bool) (v : Word) : BitVec 32 :=
  if second then v.setWidth 32 <<< 16 else v.setWidth 32

/-- WATCHED_CHANNEL_WRITE (R129): each channel named is removed from the set, in either port state. -/
def execWatchedChannelWrite (p : Port) (value : Word) (s : State) : Host.Outcome State Fault Refusal :=
  .next (s.takeWord p .watched fun a s => s.updPort p fun ps =>
    { ps with watched := ps.watched &&& ~~~(watchedBits (a = 0x981) value) })

/-! ### Reads that capture -/

/-- The first words of queue positions and of latest-value slots, the low words of slot counters, the timestamp's low
word and the first result word: reading one captures (R75, R137, R140, R153). -/
def capturesAt (a : BitVec 12) : Bool :=
  let n := a.toNat
  n == 0x01D || n == 0xA02 ||
    (0x100 ≤ n && n ≤ 0x1FF && (n % 32 == 22 || n % 32 == 24 || n % 32 == 26 || n % 32 == 28 || n % 32 == 30)) ||
    (0x240 ≤ n && n ≤ 0x2BF && n % 8 == 0) || (0x400 ≤ n && n ≤ 0x7FF && n % 8 == 0)

/-- Whether the frame comes to address `a` by reads that capture nothing. Such reads change nothing in the part (R143)
and have no row of their own; the read of `a` stands for them too (notes/assumptions/13.md). -/
def comesTo (current a : BitVec 12) : Bool :=
  (List.range (a - current).toNat).all fun k => !capturesAt (current + BitVec.ofNat 12 k)

/-- The frame after the read of address `a` with the words `caps` captured: a later capture of an address takes the
place of an earlier one, and the address advances (R143). -/
def Frame.capture (a : BitVec 12) (caps : List Capture) (f : Frame) : Frame :=
  { f with address := a + 1
           captures := caps ++ f.captures.filter fun c => !(caps.any fun d => d.address == c.address) }

/-- A read of the words at `rest` captured as they stand. -/
def State.captureWords (s : State) (p : Port) (rest : List (BitVec 12)) : List Capture :=
  rest.map fun b => ⟨b, s.windowWord p b⟩

/-- The read of address `a`, which captures the words at `rest` for the rest of the frame; it happens in a read frame that
the port does not ignore and that comes to `a`. -/
def State.captureRead (p : Port) (a : BitVec 12) (rest : List (BitVec 12)) (s : State) : State :=
  match (s.port p).frame with
  | some f =>
    if !f.write && !f.ignored && comesTo f.address a then
      s.updPort p fun ps => { ps with frame := some (f.capture a (s.captureWords p rest)) }
    else s
  | none => s

/-- TIMESTAMP_LOW_READ (R75): the read of 0xA02 captures the high half, 0xA03. -/
def execTimestampLowRead (p : Port) (s : State) : Host.Outcome State Fault Refusal :=
  .next (s.captureRead p 0xA02 [0xA03])

/-- The address of the low word of counter `k` of the port's slot `i` (§11.2, §11.4). -/
def counterAddress (i : Fin 8) (k : Fin 5) : BitVec 12 := BitVec.ofNat 12 (0x100 + 32 * i.val + 22 + 2 * k.val)

/-- COUNTER_LOW_WORD_READ (R153): the read of a counter's low word captures its high word. -/
def execCounterLowWordRead (p : Port) (slot : Fin 8) (counter : Fin 5) (s : State) : Host.Outcome State Fault Refusal :=
  .next (s.captureRead p (counterAddress slot counter) [counterAddress slot counter + 1])

/-- The address of the first word of a record's holder (§11.2). -/
def holderAddress : RecordHolder → BitVec 12
  | .position .q0 i => BitVec.ofNat 12 (0x400 + 8 * i.val)
  | .position .q1 i => BitVec.ofNat 12 (0x600 + 8 * i.val)
  | .latestSlot n => BitVec.ofNat 12 (0x240 + 8 * n.val)

/-- The number of words after the first that the record of a holder takes: six after a position's element number, five
after a slot's first word (§11.5). -/
def holderRest : RecordHolder → Nat
  | .position _ _ => 6
  | .latestSlot _ => 5

/-- RECORD_FIRST_WORD_READ (R137, R140): the read of the first word captures the whole record. -/
def execRecordFirstWordRead (p : Port) (holder : RecordHolder) (s : State) : Host.Outcome State Fault Refusal :=
  .next (s.captureRead p (holderAddress holder)
    ((List.range (holderRest holder)).map fun k => holderAddress holder + BitVec.ofNat 12 (k + 1)))

/-- RESULT_WORD_READ (R153): the read of 0x01D captures 0x01E. -/
def execResultWordRead (p : Port) (s : State) : Host.Outcome State Fault Refusal :=
  .next (s.captureRead p 0x01D [0x01E])

end Sys2Proof.Machine
end

