-- ==== Sys2Proof/Machine/Calibration.lean ====
section
/-! DEFINITION. The Calibration Unit's commands and its lease (chapter 6): LEASE, END_LEASE, SET_PROVISIONAL,
DROP_PROVISIONAL, COMMIT, BURN_FACTORY, RELOAD, LEASE_EXPIRY; and the store's acceptance of their work (R111, R112). -/
namespace Sys2Proof.Machine

/-! ### The lease -/

/-- Updates the lease. -/
def State.updLease (f : Lease → Lease) (s : State) : State := { s with cal := { s.cal with lease := f s.cal.lease } }

/-- Every provisional part in the table is discarded (R99). -/
def State.discardProvisional (s : State) : State :=
  (List.finRange 32).foldl (fun s i =>
    { s with cal := { s.cal with table := tupd s.cal.table i fun e => { e with provisional := none } } }) s

/-- The remaining time is set to the stored duration × 100 ms (R98). -/
def Lease.renew (l : Lease) : Lease := { l with remaining := l.duration * Config.leaseUnit }

/-- The lease ends before its time (R100): every provisional part is discarded and the holder becomes none. The
remaining time that the view then shows is a free value within its range (notes/assumptions/8.md). -/
def State.dropLease (s : State) : State :=
  (s.discardProvisional.updLease fun l =>
    { l with holder := none, remaining := min (Config.endedLease s.freeCount) Config.maxLease }).countFree

/-- Each lease command from the port that holds the lease at that moment renews it, whatever the answer (R98). -/
def State.leaseCommand (p : Port) (body : State → State × ResultCode) (s : State) : State × ResultCode :=
  let r := body s
  (if s.cal.lease.holder = some p then r.1.updLease Lease.renew else r.1, r.2)

/-- LEASE on an OPEN port, checks 2 and 3 in their order (R97). -/
def State.takeLease (p : Port) (s : State) : State × ResultCode :=
  let duration := (s.param p 0).toNat
  if ¬(1 ≤ duration ∧ duration ≤ 255) then (s, .badField)
  else if s.cal.lease.holder = none ∨ s.cal.lease.holder = some p then
    (s.updLease fun _ => ⟨some p, duration, duration * Config.leaseUnit⟩, .ok)
  else (s, .leaseHeld)

/-- LEASE (R97), command code 16. -/
def execLease (p : Port) (s : State) : Host.Outcome State Fault Refusal :=
  .next (s.command p 16 fun s => s.whenOpen p (State.leaseCommand p (State.takeLease p)))

/-- END_LEASE on an OPEN port (R100). -/
def State.endLease (p : Port) (s : State) : State × ResultCode :=
  if s.cal.lease.holder = some p then (s.dropLease, .ok) else (s, .noLease)

/-- END_LEASE (R100), command code 17. -/
def execEndLease (p : Port) (s : State) : Host.Outcome State Fault Refusal :=
  .next (s.command p 17 fun s => s.whenOpen p (State.endLease p))

/-- Whether the lease's remaining time has reached 0 (R99). -/
def Lease.expiryDue (l : Lease) : Bool := l.holder.isSome && l.remaining == 0

/-- LEASE_EXPIRY (R99): provisional parts are discarded, the holder becomes none, LEASE_LOST is raised at the former
holder. -/
def State.leaseExpiry (s : State) : State :=
  if s.cal.lease.expiryDue then
    match s.cal.lease.holder with
    | some p => (s.discardProvisional.updLease fun l => { l with holder := none }).raise p .leaseLost
    | none => s
  else s

/-- LEASE_EXPIRY (R99). -/
def execLeaseExpiry (s : State) : Host.Outcome State Fault Refusal := .next s.leaseExpiry

/-! ### Provisional coefficients -/

/-- SET_PROVISIONAL on an OPEN port, checks 2 and 3 in their order (R101). -/
def State.setProvisional (p : Port) (s : State) : State × ResultCode :=
  match channelNumber (s.param p 0) with
  | none => (s, .badField)
  | some ch =>
    if s.param p 2 = 0 then (s, .badField)
    else if s.cal.lease.holder ≠ some p then (s, .noLease)
    else (s.updCalEntry ch fun e => { e with provisional := some ⟨s.param p 1, s.param p 2⟩ }, .ok)

/-- SET_PROVISIONAL (R101), command code 18. -/
def execSetProvisional (p : Port) (s : State) : Host.Outcome State Fault Refusal :=
  .next (s.command p 18 fun s => s.whenOpen p (State.leaseCommand p (State.setProvisional p)))

/-- The checks that DROP_PROVISIONAL, COMMIT, BURN_FACTORY and RELOAD share: the channel, then the lease (R102-R106). -/
def State.withChannel (p : Port) (body : Channel → State → State × ResultCode) (s : State) : State × ResultCode :=
  match channelNumber (s.param p 0) with
  | none => (s, .badField)
  | some ch => if s.cal.lease.holder = some p then body ch s else (s, .noLease)

/-- DROP_PROVISIONAL on an OPEN port (R102). -/
def State.dropProvisional (p : Port) (s : State) : State × ResultCode :=
  s.withChannel p fun ch s =>
    if (s.calEntry ch).provisional.isNone then (s, .notActive)
    else (s.updCalEntry ch fun e => { e with provisional := none }, .ok)

/-- DROP_PROVISIONAL (R102), command code 19. -/
def execDropProvisional (p : Port) (s : State) : Host.Outcome State Fault Refusal :=
  .next (s.command p 19 fun s => s.whenOpen p (State.leaseCommand p (State.dropProvisional p)))

/-! ### Operations on the store -/

/-- The commit record is filled (R103). -/
def State.fillCommit (k : CommitKind) (ch : Channel) (p : Port) (s : State) : State :=
  { s with cal := { s.cal with commit := some ⟨k, ch, p⟩ } }

/-- The store takes up an operation that ends after `time` microseconds (R110, R111, R112). -/
def State.startStore (op : StoreOp) (time : Nat) (s : State) : State :=
  { s with store := { s.store with op := op, opEnd := s.now + time } }

/-- Whether a record is VALID. -/
def StoreRecord.isValid : StoreRecord → Bool
  | .valid _ => true
  | .unwritten => false
  | .invalid => false

/-- The time that the reading of a channel's records takes: 2.5 ms for a VALID field record, else a further 2.5 ms
(R112, R114). -/
def State.readingTime (s : State) (ch : Channel) : Nat :=
  if (s.fieldRecord ch).isValid then Config.readTime else Config.readTime + Config.readTime

/-- COMMIT on an OPEN port, checks 2 to 5 in their order; the field record is INVALID from the acceptance (R104, R111). -/
def State.commit (p : Port) (s : State) : State × ResultCode :=
  s.withChannel p fun ch s =>
    match (s.calEntry ch).provisional with
    | none => (s, .notActive)
    | some c =>
      if s.store.op ≠ .idle then (s, .busy)
      else
        let s := s.fillCommit (.commit c) ch p
        let s := s.updCalEntry ch fun e => { e with commitPending := true }
        ((s.setFieldRecord ch .invalid).startStore (.writingField ch c) Config.writeTime, .accepted)

/-- COMMIT (R104), command code 20. -/
def execCommit (p : Port) (s : State) : Host.Outcome State Fault Refusal :=
  .next (s.command p 20 fun s => s.whenOpen p (State.leaseCommand p (State.commit p)))

/-- BURN_FACTORY on an OPEN port, LOCKED before BUSY; the factory record is INVALID from the acceptance (R105, R111). -/
def State.burnFactory (p : Port) (s : State) : State × ResultCode :=
  s.withChannel p fun ch s =>
    match (s.calEntry ch).provisional with
    | none => (s, .notActive)
    | some c =>
      if s.factoryRecord ch ≠ .unwritten then (s, .locked)
      else if s.store.op ≠ .idle then (s, .busy)
      else
        let s := s.fillCommit (.burnFactory c) ch p
        ((s.setFactoryRecord ch .invalid).startStore (.writingFactory ch c) Config.writeTime, .accepted)

/-- BURN_FACTORY (R105), command code 21. -/
def execBurnFactory (p : Port) (s : State) : Host.Outcome State Fault Refusal :=
  .next (s.command p 21 fun s => s.whenOpen p (State.leaseCommand p (State.burnFactory p)))

/-- RELOAD on an OPEN port (R106, R112). -/
def State.reload (p : Port) (s : State) : State × ResultCode :=
  s.withChannel p fun ch s =>
    if s.store.op ≠ .idle then (s, .busy)
    else
      let s := s.updCalEntry ch fun e => { e with provisional := none }
      let s := s.fillCommit .reload ch p
      (s.startStore (.reading ch) (s.readingTime ch), .accepted)

/-- RELOAD (R106), command code 22. -/
def execReload (p : Port) (s : State) : Host.Outcome State Fault Refusal :=
  .next (s.command p 22 fun s => s.whenOpen p (State.leaseCommand p (State.reload p)))

end Sys2Proof.Machine
end

