-- ==== Sys2Proof/Machine/DueList.lean ====
section
/-! DEFINITION. The arbiter's due list and stamp order, and the return of STALLED requests (R41-R43, R51). -/
namespace Sys2Proof.Machine

/-- A request that is DUE or STALLED holds its due stamp (R41). -/
def Slot.holdsStamp (x : Slot) : Bool := x.state == .due || x.state == .stalled

/-- A due stamp is in use while a DUE or STALLED request holds it (R41). -/
def State.stampInUse (s : State) (stamp : Word) : Bool :=
  allSlots.any fun i => (s.slot i).holdsStamp && (s.slot i).dueStamp == stamp

/-- The stamps that no DUE or STALLED request holds any more leave the stamp order; the others keep their order
(R42, R43). -/
def State.pruneStamps (s : State) : State :=
  { s with arbiter := { s.arbiter with stampOrder := s.arbiter.stampOrder.filter s.stampInUse } }

/-- The stamp counter advanced by one: from 65535 to 1, so that 0 is never issued (R42). -/
def nextStamp (c : Word) : Word := if c = 65535 then 1 else c + 1

/-- Advances the counter past every value that is in the stamp order; 25 advances are enough (R42). -/
def freshStamp (order : List Word) : Nat → Word → Word
  | 0, c => nextStamp c
  | n + 1, c => if nextStamp c ∈ order then freshStamp order n (nextStamp c) else nextStamp c

/-- The stamp that the arbiter issues next (R42). -/
def Arbiter.newStamp (a : Arbiter) : Word := freshStamp a.stampOrder 24 a.stampCounter

/-- Makes a slot DUE with a stamp. -/
def Slot.becomeDue (stamp : Word) (x : Slot) : Slot := { x with state := .due, dueStamp := stamp }

/-- One occurrence makes the requests `ids` DUE with one new stamp; if it makes none DUE, it issues none (R10, R42). -/
def State.makeDue (ids : List SlotId) (s : State) : State :=
  if ids.isEmpty then s else
    let stamp := s.arbiter.newStamp
    let s := ids.foldl (fun s i => s.updSlot i (Slot.becomeDue stamp)) s
    { s with arbiter := { s.arbiter with stampOrder := s.arbiter.stampOrder ++ [stamp], stampCounter := stamp } }

/-- A STALLED request of port `p` on queue `q` whose scan length is at most `room` (R51). -/
def Slot.returnsFrom (q : QueueId) (room : Nat) (x : Slot) : Bool :=
  x.state == .stalled && x.fields.targetOf == some (.queue q) && x.fields.scanLength.toNat ≤ room

/-- The room of queue `q` of port `p` has increased: every STALLED request on it that fits returns to DUE with the
stamp it holds, each measured against the same room (R51). -/
def State.returnStalled (p : Port) (q : QueueId) (s : State) : State :=
  let room := (s.port p).room q
  (portSlots p).foldl (fun s i =>
    if (s.slot i).returnsFrom q room then s.updSlot i fun x => { x with state := .due } else s) s

end Sys2Proof.Machine
end

