-- ==== Sys2Proof/Machine/RequestTable.lean ====
section
/-! DEFINITION. The Request Table (chapters 1, 2 and 5): the endings of postings, triggers, sweep reports. -/
namespace Sys2Proof.Machine

/-! ### Endings (R16-R23) -/

/-- The completion record of slot `i` at its ending (R20). -/
def State.completionRecord (s : State) (i : SlotId) (o : EndOutcome) : CompletionRecord :=
  { slot := i, tag := (s.slot i).fields.tag, outcome := o, counters := (s.slot i).counters, endTime := s.timestamp }

/-- A completion record is appended with COMPLETION, or dropped with COMPLETION_LOST (R21). -/
def PortState.addCompletion (r : CompletionRecord) (ps : PortState) : PortState :=
  if ps.completions.length < Config.completionCapacity then
    { ps with completions := ps.completions ++ [r] }.raise .completion
  else ps.raise .completionLost

/-- One reference of a timer is dropped; an orphan whose count of references reaches 0 becomes FREE (R30). -/
def Timer.dropRef (t : Timer) : Timer :=
  let t := { t with refs := t.refs - 1 }
  if t.refs = 0 ∧ (t.state = .orphanedRunning ∨ t.state = .orphanedStopped) then
    { t with state := .free, count := 0 }
  else t

/-- A posting with these fields that ends drops its timer reference, if its source is a timer (R16, R30). -/
def State.dropTimerRef (f : SlotFields) (s : State) : State :=
  match f.sourceOf with
  | some (.timer n) => s.updTimer n Timer.dropRef
  | _ => s

/-- The slot of an ended posting: IDLE, pending trigger clear, no drain record; counters, passed-over count and due
stamp keep their values (R16). -/
def Slot.ended (x : Slot) : Slot :=
  { x with state := .idle, pendingTrigger := false, held := 0, truncatedAt := none }

/-- What an ended posting still held of its reservation is returned to its target queue (R16, R134). With `examine`,
the increase of room is examined (R51). -/
def State.returnHeld (p : Port) (x : Slot) (examine : Bool) (s : State) : State :=
  if x.held = 0 then s else
    match x.fields.targetOf with
    | some (.queue q) =>
      let s := s.updPort p fun ps => ps.updRing q fun r => { r with reserved := r.reserved - x.held }
      if examine then s.returnStalled p q else s
    | _ => s

/-- A cut handed to the sequencer for an ended posting's sweep finds the sweep gone (R80, R87); it is dropped here
(notes/assumptions/18.md). -/
def State.forgetCut (i : SlotId) (s : State) : State :=
  { s with seq := { s.seq with cuts := s.seq.cuts.filter (· != i) } }

/-- The posting of slot `i` ends (R16). With an outcome, a completion record is written (R20, R21); without one (CLOSE
and port reset, R17), none is, and no return of room is examined, since every request of the port is ending (R87). -/
def State.endPosting (i : SlotId) (outcome : Option EndOutcome) (s : State) : State :=
  let x := s.slot i
  let p := slotOwner i
  if x.state = .idle then s else
    let s := match outcome with
      | some o => s.updPort p (PortState.addCompletion (s.completionRecord i o))
      | none => s
    let s := s.updSlot i Slot.ended
    let s := s.dropTimerRef x.fields
    let s := s.pruneStamps
    let s := s.forgetCut i
    s.returnHeld p x outcome.isSome

/-! ### Triggers (R24-R27) -/

/-- A trigger is counted as missed (R25). -/
def Counters.missTrigger (c : Counters) : Counters := { c with triggersMissed := c.triggersMissed + 1 }

/-- A DUE, STALLED or RUNNING request whose pending trigger is set is overrun by a further trigger (R25). -/
def Slot.overruns (x : Slot) : Bool :=
  x.pendingTrigger && (x.state == .due || x.state == .stalled || x.state == .running)

/-- A trigger would end this posting at once: a strict overrun of a DUE or STALLED request (R26). -/
def Slot.strictEnds (x : Slot) : Bool := x.pendingTrigger && x.fields.strict && x.holdsStamp

/-- The Request Table takes a trigger for a request that is not ARMED (R25, R26). -/
def State.takeTrigger (i : SlotId) (s : State) : State :=
  let x := s.slot i
  let missed := fun (s : State) => (s.updCounters i Counters.missTrigger).raise (slotOwner i) .triggerMissed
  match x.state with
  | .idle => s
  | .armed => s
  | .due | .stalled =>
    if x.pendingTrigger then
      let s := missed s
      if x.fields.strict then s.endPosting i (some .overrun) else s
    else s.updSlot i fun x => { x with pendingTrigger := true }
  | .running =>
    if x.pendingTrigger then
      let s := missed s
      if x.fields.strict then s.updSlot i fun x => { x with state := .draining ⟨.overrun, false⟩ } else s
    else s.updSlot i fun x => { x with pendingTrigger := true }
  | .draining _ => s.updCounters i Counters.missTrigger

/-- Inserts a slot among slots that stand in rising rank. -/
def insertByRank (rank : SlotId → Nat) (i : SlotId) : List SlotId → List SlotId
  | [] => [i]
  | j :: rest => if rank i < rank j then i :: j :: rest else j :: insertByRank rank i rest

/-- The slots in rising rank. -/
def orderByRank (rank : SlotId → Nat) (ids : List SlotId) : List SlotId := ids.foldr (insertByRank rank) []

/-- One occurrence delivers a trigger to each of the requests `ids`, which are not IDLE, in one taking (R24): those that
are ARMED become DUE with one stamp; each other takes its trigger by its own state (R25). The postings that a strict
overrun ends at once are ended in a free order (notes/assumptions/7.md), after the rest (notes/assumptions/22.md). -/
def State.deliverTriggers (ids : List SlotId) (s : State) : State :=
  let armed := ids.filter fun i => (s.slot i).state == .armed
  let ending := ids.filter fun i => (s.slot i).strictEnds
  let other := ids.filter fun i => !((s.slot i).state == .armed) && !(s.slot i).strictEnds
  let s := s.makeDue armed
  let s := other.foldl (fun s i => s.takeTrigger i) s
  let s := (orderByRank (Config.endingRank s.freeCount) ending).foldl (fun s i => s.takeTrigger i) s
  s.countFree

/-- The requests that an occurrence reaches: those that name it and are not IDLE (R24). -/
def State.reached (s : State) (names : SlotFields → Bool) : List SlotId :=
  allSlots.filter fun i => names (s.slot i).fields && !((s.slot i).state == .idle)

/-! ### Sweep reports (R13, R14, R81) -/

/-- How the sequencer reports the end of a sweep (§1.3). -/
inductive SweepEnd
  | completed | cut
  deriving DecidableEq, Repr

/-- A report of the sequencer to the Request Table (R67, R81). -/
structure Report where
  slot : SlotId
  kind : SweepEnd
  deriving DecidableEq, Repr

/-- A completed sweep counts in sweeps done (R13, R14). -/
def Counters.completeSweep (c : Counters) : Counters := { c with sweepsDone := c.sweepsDone + 1 }

/-- Whether the sweeps done have reached the sweep count, which is not 0 (R13, R14). -/
def Slot.isFinal (x : Slot) : Bool :=
  x.fields.sweepCount != 0 && x.counters.sweepsDone == x.fields.sweepCount.setWidth 32

/-- The outcome of a drain whose sweep completed (R14). -/
def Drain.outcome (d : Drain) (final : Bool) : EndOutcome :=
  match d.cause, final with
  | .cancel, false => .cancelled
  | .cancel, true => .completedDespiteCancel
  | .overrun, false => .overrun
  | .overrun, true => .completed

/-- The outcome of a drain whose sweep was cut (R14). -/
def Drain.cutOutcome (d : Drain) : EndOutcome :=
  match d.cause with
  | .cancel => .cancelled
  | .overrun => .overrun

/-- A sweep of slot `i` completes (R13 for RUNNING, R14 for DRAINING). -/
def State.completeSweep (i : SlotId) (s : State) : State :=
  match (s.slot i).state with
  | .running =>
    let s := s.updCounters i Counters.completeSweep
    let x := s.slot i
    if x.isFinal then s.endPosting i (some .completed)
    else if x.pendingTrigger then (s.updSlot i fun x => { x with pendingTrigger := false }).makeDue [i]
    else if x.fields.sourceOf = some .immediate then s.makeDue [i]
    else s.updSlot i fun x => { x with state := .armed }
  | .draining d =>
    let s := s.updCounters i Counters.completeSweep
    s.endPosting i (some (d.outcome (s.slot i).isFinal))
  | .idle | .armed | .due | .stalled => s

/-- A sweep of slot `i` is cut (R14, R81). -/
def State.cutSweep (i : SlotId) (s : State) : State :=
  match (s.slot i).state with
  | .draining d => s.endPosting i (some d.cutOutcome)
  | .idle | .armed | .due | .stalled | .running => s

/-- The Request Table takes a report of the sequencer. -/
def State.takeReport (r : Option Report) (s : State) : State :=
  match r with
  | none => s
  | some r =>
    match r.kind with
    | .completed => s.completeSweep r.slot
    | .cut => s.cutSweep r.slot

/-- The sequencer makes the report of a readout, if there is one, to the Request Table. A cut sweep's is taken in the taking
of the readout, and the posting ends in it (R81). A completed sweep's waits behind those that wait already, and its taking is
an event of its own: DESIGN CHOICE, notes/assumptions/4.md. -/
def State.handReport (r : Option Report) (s : State) : State :=
  match r with
  | none => s
  | some r =>
    match r.kind with
    | .completed => { s with seq := { s.seq with reports := s.seq.reports ++ [r.slot] } }
    | .cut => s.cutSweep r.slot

/-- The Request Table takes the first of the reports that wait. -/
def State.takeFirstReport (s : State) : State :=
  match s.seq.reports with
  | [] => s
  | i :: rest => { s with seq := { s.seq with reports := rest } }.completeSweep i

/-- The Request Table takes the reports that wait about the slots that `which` picks, in the order in which they were made
(notes/assumptions/4.md). -/
def State.takeReports (which : SlotId → Bool) (s : State) : State :=
  (s.seq.reports.filter which).foldl (fun s i => s.completeSweep i)
    { s with seq := { s.seq with reports := s.seq.reports.filter fun i => !which i } }

/-- The reports that wait are taken now, or left to be taken later (R62, R46, notes/assumptions/4.md). -/
def State.takeReportsWhen (taking : ReportTaking) (s : State) : State :=
  match taking with
  | .atOnce => s.takeReports fun _ => true
  | .later => s

end Sys2Proof.Machine
end

