-- ==== Sys2Proof/Machine/Delivery.lean ====
section
/-! DEFINITION. The calibrated value (R93-R95), own delivery and shared delivery of a sample (chapter 8). -/
namespace Sys2Proof.Machine

/-! ### The calibrated value -/

/-- The exact quotient (a − offset) × gain ÷ 16384, rounded to the nearest integer, halves away from zero (R93). -/
def roundedQuotient (a offset : Int) (gain : Nat) : Int :=
  let product := (a - offset) * gain
  let magnitude : Int := ((product.natAbs + 8192) / 16384 : Nat)
  if product < 0 then -magnitude else magnitude

/-- Clamps to −32768…32767 and says whether it did (R93). -/
def clampValue (v : Int) : Int × Bool :=
  if 32767 < v then (32767, true) else if v < -32768 then (-32768, true) else (v, false)

/-- The calibrated value of an average and its CLAMP flag (R93). -/
def calibrated (a : Int) (c : Coefficients) : Int × Bool :=
  clampValue (roundedQuotient a c.offset.toInt c.gain.toNat)

/-- What the sequencer hands over as a sample (R66). -/
structure Sample where
  slot : SlotId
  sweepIndex : Word
  entry : Nat
  channel : Channel
  average : Int
  overRange : Bool
  timestamp : DWord
  deriving DecidableEq, Repr

/-- The value, CLAMP flag and cal source of a sample's copy for port `p` (R94). -/
def State.copyValue (s : State) (p : Port) (x : Sample) : (Int × Bool) × CalSource :=
  let e := s.calEntry x.channel
  if (s.slot x.slot).fields.raw then ((x.average, false), .raw)
  else
    match e.provisional with
    | some c =>
      if s.cal.lease.holder = some p then (calibrated x.average c, .provisional)
      else (calibrated x.average e.committed, e.source.flag)
    | none => (calibrated x.average e.committed, e.source.flag)

/-- The sample record of a sample's copy for port `p` (R122). -/
def State.copyRecord (s : State) (p : Port) (shared : Bool) (x : Sample) : SampleRecord :=
  let v := s.copyValue p x
  { value := BitVec.ofInt 16 v.1.1, channel := x.channel, entry := BitVec.ofNat 4 x.entry, slot := x.slot
    sourcePort := slotOwner x.slot, tag := (s.slot x.slot).fields.tag, sweepIndex := x.sweepIndex
    timestamp := x.timestamp, overRange := x.overRange, clamp := v.1.2, shared := shared, urgent := false
    calSource := v.2 }

/-! ### Own delivery (R120, R121) -/

/-- Whether an own store of this posting draws on its reservation: its policy is STALL and it still holds a place (R120,
R134). A STALL posting holds one at each of its own stores; in a state where it does not, which no run reaches, it stores
without a reservation (notes/assumptions/24.md). -/
def Slot.drawsReserved (x : Slot) : Bool := x.fields.policyOf == some .stall && 0 < x.held

/-- The store of own delivery at the owning port. None: the target is NONE, and no counter changes (R121). Some: the
port after the attempt, and whether the sample was stored. -/
def PortState.ownStore (x : Slot) (entry : Nat) (rec : SampleRecord) (ps : PortState) : Option (PortState × Bool) :=
  match x.fields.targetOf with
  | some (.queue q) => if x.drawsReserved then some (ps.storeReserved q rec) else some (ps.storeUnreserved q rec)
  | some (.slots base) => if h : base + entry < 16 then some (ps.storeSlot ⟨base + entry, h⟩ rec) else some (ps, false)
  | some .none => none
  | none => none

/-- Samples delivered or samples lost is incremented (R18). -/
def Counters.countDelivery (stored : Bool) (c : Counters) : Counters :=
  if stored then { c with samplesDelivered := c.samplesDelivered + 1 } else { c with samplesLost := c.samplesLost + 1 }

/-- A STALL own store that has been made has consumed one place of what the posting holds (R120, R86). -/
def Slot.consumePlace (stored : Bool) (x : Slot) : Slot :=
  if stored && x.drawsReserved then { x with held := x.held - 1 } else x

/-- Own delivery of a sample whose copy for its owner is `rec` (R120, R121). -/
def State.deliverOwn (x : Sample) (rec : SampleRecord) (s : State) : State :=
  let p := slotOwner x.slot
  match (s.port p).ownStore (s.slot x.slot) x.entry rec with
  | none => s
  | some (ps, stored) =>
    ((s.updPort p fun _ => ps).updCounters x.slot (Counters.countDelivery stored)).updSlot x.slot (Slot.consumePlace stored)

/-! ### Shared delivery (R123-R129) -/

/-- Whether a filter element applies to a sample's copy at the receiving port (R125). -/
def PortState.applies (ps : PortState) (rec : SampleRecord) (f : FilterElement) : Bool :=
  f.enabled && f.accepts rec.sourcePort && f.kindMatches rec.channel rec.tag &&
    match f.actionOf with
    | none => false
    | some (.storeSlot n) => !(tget ps.latest n).newData
    | some _ => true

/-- The action that decides a copy: that of the first element that applies, else the unmatched action (R125). -/
def PortState.decidingAction (ps : PortState) (rec : SampleRecord) : FilterAction :=
  match ps.filters.toList.find? (ps.applies rec) with
  | some f => f.actionOf.getD .reject
  | none => unmatchedAction ps.unmatched

/-- Carries out an action on a copy (R126-R129). -/
def PortState.carryOut (action : FilterAction) (rec : SampleRecord) (ps : PortState) : PortState :=
  match action with
  | .reject => ps
  | .store q => (ps.storeUnreserved q rec).1
  | .storeUrgent =>
    let r := ps.storeUnreserved .q0 { rec with urgent := true }
    if r.2 then r.1.raise .urgent else r.1
  | .watch => { ps with watched := ps.watched ||| BitVec.twoPow 32 rec.channel.toNat }.raise .watched
  | .storeSlot n => (ps.storeSlot n rec).1

/-- A port evaluates its copy of a shared sample once (R123, R125). -/
def PortState.offer (rec : SampleRecord) (ps : PortState) : PortState := ps.carryOut (ps.decidingAction rec) rec

/-- Whether a shared sample of port `owner` is offered to port `p`: another port, OPEN in the taking (R123), and not one
that closes in the same taking before the sample (`closing`, notes/assumptions/5.md). -/
def State.offeredTo (s : State) (owner : Port) (closing : Option Port) (p : Port) : Bool :=
  (s.port p).mode == .opened && p != owner && closing != some p

/-- The Delivery Unit takes a sample in one taking: entries produced rises, every copy is computed against the table as
it stands, own delivery is made, and each other OPEN port evaluates its copy if the posting shares (R18, R95, R119). -/
def State.deliver (closing : Option Port) (x : Sample) (s₀ : State) : State :=
  let owner := slotOwner x.slot
  let s := s₀.updCounters x.slot fun c => { c with entriesProduced := c.entriesProduced + 1 }
  let s := s.deliverOwn x (s₀.copyRecord owner false x)
  if (s₀.slot x.slot).fields.share then
    allPorts.foldl (fun s p =>
      if s₀.offeredTo owner closing p then s.updPort p (PortState.offer (s₀.copyRecord p true x)) else s) s
  else s

end Sys2Proof.Machine
end

