-- ==== Sys2Proof/Machine/Pipeline.lean ====
section
/-! DEFINITION. The conversion pipeline (chapter 4): selection, START, readout, averaging, FLUSH, and what a cut, a
closing port and a fault do to the records in flight. -/
namespace Sys2Proof.Machine

/-- Updates the sequencer. -/
def State.updSeq (f : Sequencer → Sequencer) (s : State) : State := { s with seq := f s.seq }

/-! ### Selection and settling (R60, R61) -/

/-- The record of a sweep's conversion, from its scan entry (R61). -/
def sweepRecord (i : SlotId) (index : Word) (f : SlotFields) (entry repetition : Nat) : SweepRecord :=
  let e := f.entryAt entry
  { slot := i, sweepIndex := index, entry := entry, repetition := repetition, channel := e.channel.setWidth 5
    extension := e.extension.toNat, count := e.count.toNat }

/-- A record enters the next-conversion register: on a change of channel the multiplexer is set and settles from the
present time; on the same channel both are left (R60). -/
def Sequencer.select (now : Nat) (r : SweepRecord) (q : Sequencer) : Sequencer :=
  let q := { q with selected := some r }
  if q.selectedChannel = some r.channel then q
  else { q with selectedChannel := some r.channel
                settledTime := now + Config.baseSettle + Config.settleUnit * r.extension }

/-- The conversion after entry e, repetition r of a sweep: the next repetition, else the next entry, unless the sweep is
truncated at e or e is its last entry (R61, R80). -/
def nextConversion (x : Slot) (r : SweepRecord) : Option SweepRecord :=
  if r.repetition + 1 < r.count then some { r with repetition := r.repetition + 1 }
  else if r.entry + 1 < x.fields.scanLength.toNat ∧ x.truncatedAt ≠ some r.entry then
    some (sweepRecord r.slot r.sweepIndex x.fields (r.entry + 1) 0)
  else none

/-- Refill at a START that moved the record `r` of the active sweep out of the register (R61). -/
def State.refill (r : SweepRecord) (s : State) : State :=
  match nextConversion (s.slot r.slot) r with
  | some next => s.updSeq (Sequencer.select s.now next)
  | none => s.updSeq fun q => { q with active := none }

/-! ### Readout, averaging and samples (R65-R67, R81) -/

/-- The signed value of a raw code (R57). -/
def signedCode (raw : Word) : Int := (raw.toNat : Int) - 32768

/-- The extreme codes 0 and 65535 mark the input as over-range (R57). -/
def extremeCode (raw : Word) : Bool := raw == 0 || raw == 65535

/-- The accumulator after the readout of a sweep record (R66). -/
def accumulate (r : SweepRecord) (start : DWord) (raw : Word) (acc : Option Accumulator) : Option Accumulator :=
  if r.repetition = 0 then
    some { slot := r.slot, sweepIndex := r.sweepIndex, entry := r.entry, sum := signedCode raw, readouts := 1
           overRange := extremeCode raw, firstStart := start }
  else acc.map fun a => { a with sum := a.sum + signedCode raw, readouts := a.readouts + 1
                                 overRange := a.overRange || extremeCode raw }

/-- The sample of a finished entry: its average is floor(sum ÷ count) (R66). -/
def finishedSample (r : SweepRecord) (a : Accumulator) : Sample :=
  { slot := r.slot, sweepIndex := a.sweepIndex, entry := a.entry, channel := r.channel, average := a.sum / (r.count : Int)
    overRange := a.overRange, timestamp := a.firstStart }

/-- What a finished entry ends: its sweep completes if it was the last entry (R67); its sweep is cut if it is the entry
at which the sweep was truncated (R81). -/
def Slot.reportAfter (x : Slot) (r : SweepRecord) : Option Report :=
  if r.entry + 1 = x.fields.scanLength.toNat then some ⟨r.slot, .completed⟩
  else if x.truncatedAt = some r.entry then some ⟨r.slot, .cut⟩
  else none

/-- The readout of a sweep record: it is accumulated, and a finished entry becomes a sample (R66, R67). -/
def State.readSweep (closing : Option Port) (r : SweepRecord) (start : DWord) (s : State) : State × Option Report :=
  match accumulate r start s.seq.converterCode s.seq.accumulator with
  | none => (s, none)
  | some a =>
    if a.readouts = r.count then
      let report := (s.slot r.slot).reportAfter r
      ((s.updSeq fun q => { q with accumulator := none }).deliver closing (finishedSample r a), report)
    else (s.updSeq fun q => { q with accumulator := some a }, none)

/-- The readout at a START, by the tag of the buffer record; the buffer is then empty (R62 step 1, R65). -/
def State.readout (closing : Option Port) (s : State) : State × Option Report :=
  let s' := s.updSeq fun q => { q with buffer := none }
  match s.seq.buffer with
  | some ⟨.sweep r, start⟩ => s'.readSweep closing r start
  | some ⟨.flush _, _⟩ => (s', none)
  | some ⟨.dummy _, _⟩ => (s', none)
  | some ⟨.stale, _⟩ => (s', none)
  | none => (s', none)

/-! ### START (R62, R63) -/

/-- A record becomes the converting record, started now, with the done timeout 20 µs ahead (R62 steps 2 and 3, R69). -/
def State.beginConversion (tag : RecordTag) (s : State) : State :=
  s.updSeq fun q => { q with converting := some ⟨tag, s.timestamp⟩, doneTimeout := some (s.now + Config.doneLimit) }

/-- Whether the selected record can be started: no conversion is converting and its settled time has come (R62). -/
def State.startDue (s : State) : Bool :=
  s.seq.selected.isSome && s.seq.converting.isNone && s.seq.settledTime ≤ s.now

/-- The START of the selected record `r`, in the order of R62. The report of its readout is taken if the sweep was cut (R81),
and waits to be taken if it completed. -/
def State.startSelected (r : SweepRecord) (s : State) : State :=
  let (s, report) := s.readout none
  let s := s.updSeq fun q => { q with selected := none }
  let s := s.beginConversion (.sweep r)
  let s := if s.seq.active = some ⟨r.slot, r.sweepIndex⟩ then s.refill r else s
  s.handReport report

/-- A FLUSH conversion is started on the selected channel: a START in every respect but its record (R63). The report of its
readout is taken if the sweep was cut (R81), and waits to be taken, before or after a grant, if it completed (R46,
notes/assumptions/34.md). -/
def State.flush (closing : Option Port) (s : State) : State :=
  let (s, report) := s.readout closing
  (s.beginConversion (.flush s.seq.selectedChannel)).handReport report

/-- Whether the buffer holds a sweep's record. -/
def Sequencer.bufferHoldsSweep (q : Sequencer) : Bool :=
  match q.buffer with
  | some ⟨.sweep _, _⟩ => true
  | _ => false

/-- With the register empty and nothing converting, a sweep record in the buffer is flushed; otherwise no conversion is
started, the buffer record is STALE and the pipeline is idle (R63). -/
def State.flushOrIdle (closing : Option Port) (s : State) : State :=
  if s.seq.bufferHoldsSweep then s.flush closing
  else s.updSeq fun q => { q with buffer := q.buffer.map fun b => { b with tag := .stale } }

/-- What follows a removal of the selected record (R63): only if it leaves nothing converting does anything follow. -/
def State.afterRemoval (closing : Option Port) (s : State) : State :=
  if s.seq.selected.isNone && s.seq.converting.isNone then s.flushOrIdle closing else s

/-! ### Records of a slot -/

/-- The sweep record of a tag. -/
def RecordTag.sweepRecord? : RecordTag → Option SweepRecord
  | .sweep r => some r
  | .flush _ => none
  | .dummy _ => none
  | .stale => none

/-- The sweep record in one of the places converting and buffer. -/
def placedSweep (b : Option StartedRecord) : Option SweepRecord := b.bind fun x => x.tag.sweepRecord?

/-- Whether a record belongs to slot `i`. -/
def belongsTo (i : SlotId) (r : Option SweepRecord) : Bool := r.any fun r => r.slot == i

/-- The current entry of the sweep of slot `i`: that of its most recently started conversion (R80). -/
def Sequencer.currentEntry (q : Sequencer) (i : SlotId) : Option Nat :=
  let started := fun (b : Option StartedRecord) => (placedSweep b).filter fun r => r.slot == i
  match started q.converting with
  | some r => some r.entry
  | none => (started q.buffer).map fun r => r.entry

/-! ### A cut (R80, R81) -/

/-- Whether the cut removes the selected record: it belongs to the sweep, and the sweep has no current entry or the
record is of a later entry than `current`. -/
def Sequencer.cutRemoves (q : Sequencer) (i : SlotId) (current : Option Nat) : Bool :=
  q.selected.any fun r => r.slot == i && (match current with | none => true | some e => e < r.entry)

/-- The selected record leaves the register without being started, and its sweep is no longer active. -/
def Sequencer.dropSelected (q : Sequencer) : Sequencer := { q with selected := none, active := none }

/-- A cut of a sweep that has not been started: its record is removed, the sweep is reported as cut in the same taking,
and the removal may start a FLUSH. The order of that FLUSH and the report of the cut is free, and so, where the FLUSH comes
first, is whether the report of a sweep that it completes is taken before that of the cut or waits
(notes/assumptions/6.md). -/
def State.cutUnstarted (i : SlotId) (s : State) : State :=
  let s := s.updSeq Sequencer.dropSelected
  let report : Option Report := some ⟨i, .cut⟩
  if s.seq.converting.isNone && s.seq.bufferHoldsSweep && Config.orderBit s.freeCount then
    let t := s.afterRemoval none
    ((if Config.orderBit (s.freeCount + 1) then t.takeReports (fun _ => true) else t).takeReport report).countFree.countFree
  else ((s.takeReport report).afterRemoval none).countFree.countFree

/-- A cut of a sweep at its current entry `e`, which is not its last: the sweep is truncated there (R80). -/
def State.cutAfter (i : SlotId) (e : Nat) (s : State) : State :=
  let s := s.updSlot i fun x => { x with truncatedAt := some e }
  if s.seq.cutRemoves i (some e) then (s.updSeq Sequencer.dropSelected).afterRemoval none else s

/-- The sequencer takes the cut for the sweep of slot `i` (R80). -/
def State.takeCut (i : SlotId) (s : State) : State :=
  let s := s.forgetCut i
  match s.seq.currentEntry i with
  | none => if s.seq.cutRemoves i none then s.cutUnstarted i else s
  | some e => if e + 1 = (s.slot i).fields.scanLength.toNat then s else s.cutAfter i e

/-! ### Endings with records in flight (R68, R70) -/

/-- A converting or buffer record of the closing port's postings is retagged STALE (R68). -/
def staleIfOwned (p : Port) (b : Option StartedRecord) : Option StartedRecord :=
  b.map fun x =>
    match x.tag.sweepRecord? with
    | some r => if slotOwner r.slot = p then { x with tag := .stale } else x
    | none => x

/-- The closing port's records: the selected one is removed, the started ones are retagged STALE, its accumulator entry
is emptied and its active sweep becomes none (R68). -/
def Sequencer.retag (p : Port) (q : Sequencer) : Sequencer :=
  { q with
    selected := q.selected.filter fun r => slotOwner r.slot != p
    converting := staleIfOwned p q.converting
    buffer := staleIfOwned p q.buffer
    accumulator := q.accumulator.filter fun a => slotOwner a.slot != p
    active := q.active.filter fun a => slotOwner a.slot != p }

/-- The requests whose sweep is in flight at a fault, the one whose record was converting first (R70 steps 2 and 5). -/
def Sequencer.inFlight (q : Sequencer) : List SlotId :=
  let converting := ((placedSweep q.converting).map fun r => r.slot).toList
  let buffer := ((placedSweep q.buffer).map fun r => r.slot).toList
  let selected := (q.selected.map fun r => r.slot).toList
  let active := (q.active.map fun a => a.slot).toList
  (converting ++ buffer ++ selected ++ active).eraseDups

/-- All records are removed, the accumulator is emptied, the active sweep becomes none and the link is FAULTED (R70). The
done timeout goes with its conversion (notes/assumptions/26.md). -/
def Sequencer.faultOut (q : Sequencer) : Sequencer :=
  { q with link := .faulted, selected := none, converting := none, buffer := none, accumulator := none, active := none
           doneTimeout := none }

/-- A converter fault in READY, in the order of R70. -/
def State.converterFault (s : State) : State :=
  let ids := s.seq.inFlight
  let s := (s.updSeq Sequencer.faultOut).raiseAll .converterFault
  ids.foldl (fun s i => s.endPosting i (some .converterFault)) s

/-- A restart fails: the link is FAULTED again and the DUMMY record is removed; no request ends (R73). -/
def State.restartFailure (s : State) : State :=
  (s.updSeq fun q => { q with link := .faulted, converting := none, doneTimeout := none }).raiseAll .converterFault

/-- The end of the conversion under way, with `raw` in the converter's buffer (R57, R63, R73). -/
def State.endConversion (raw : Word) (s : State) : State :=
  let s := if s.seq.link = .restarting then (s.updSeq fun q => { q with link := .ready }).raiseAll .converterReady else s
  let s := s.updSeq fun q => { q with buffer := q.converting, converting := none, doneTimeout := none, converterCode := raw }
  if s.seq.selected.isNone then s.flushOrIdle none else s

/-! ### The grant's conditions -/

/-- The four conditions of R44. -/
def State.grantDue (s : State) : Bool :=
  s.seq.selected.isNone && s.seq.active.isNone && s.seq.link == .ready && !s.dueList.isEmpty

end Sys2Proof.Machine
end

