-- ==== Sys2Proof/Machine/Timers.lean ====
section
/-! DEFINITION. The pacing timers (R28-R36): CLAIM_TIMER, SET_TIMER, START_TIMER, STOP_TIMER, RELEASE_TIMER, TIMER_UNIT
and TIMER_EXPIRY. -/
namespace Sys2Proof.Machine

/-- The check of the timer number, after the check that the port is OPEN (R31). -/
def State.withTimer (p : Port) (body : Fin 4 → State → State × ResultCode) (s : State) : State × ResultCode :=
  match timerNumber (s.param p 0) with
  | none => (s, .badField)
  | some n => body n s

/-- The further check that the issuing port owns the timer (R31). -/
def State.withOwnTimer (p : Port) (body : Fin 4 → State → State × ResultCode) (s : State) : State × ResultCode :=
  s.withTimer p fun n s => if (s.timer n).state.owner = some p then body n s else (s, .notOwner)

/-- CLAIM_TIMER by the timer's state (R32). In FREE the count is 0 (R29). -/
def Timer.claim (p : Port) (t : Timer) : Timer × ResultCode :=
  match t.state with
  | .free => ({ t with state := .held p, count := 0 }, .ok)
  | .orphanedStopped => ({ t with state := .held p }, .ok)
  | .orphanedRunning => ({ t with state := .running p }, .ok)
  | .held o => (t, if o = p then .already else .inUse)
  | .running o => (t, if o = p then .already else .inUse)

/-- CLAIM_TIMER on an OPEN port (R32). -/
def State.claimTimer (p : Port) (s : State) : State × ResultCode :=
  s.withTimer p fun n s => (s.updTimer n fun t => (t.claim p).1, ((s.timer n).claim p).2)

/-- CLAIM_TIMER (R32), command code 10. -/
def execClaimTimer (p : Port) (s : State) : Host.Outcome State Fault Refusal :=
  .next (s.command p 10 fun s => s.whenOpen p (State.claimTimer p))

/-- The ranges of SET_TIMER (R33). -/
def timerSettingOk (prescale period : Nat) : Bool :=
  (1 ≤ prescale && prescale ≤ 256) && (2 ≤ period && period ≤ 65535) && 10 ≤ prescale * period

/-- SET_TIMER on an OPEN port (R33): the stored prescale and period change; those in use do not. -/
def State.setTimer (p : Port) (s : State) : State × ResultCode :=
  s.withOwnTimer p fun n s =>
    let prescale := (s.param p 1).toNat
    let period := (s.param p 2).toNat
    if timerSettingOk prescale period then
      (s.updTimer n fun t => { t with prescale := prescale, period := period }, .ok)
    else (s, .badField)

/-- SET_TIMER (R33), command code 11. -/
def execSetTimer (p : Port) (s : State) : Host.Outcome State Fault Refusal :=
  .next (s.command p 11 fun s => s.whenOpen p (State.setTimer p))

/-- The stored prescale and period become those in use, the count is set to the period, and a fresh unit begins (R29,
R34). -/
def Timer.load (t : Timer) : Timer :=
  { t with prescaleInUse := t.prescale, periodInUse := t.period, count := t.period, phase := 0 }

/-- START_TIMER by the timer's state, for its owner (R34). -/
def Timer.start (p : Port) (t : Timer) : Timer × ResultCode :=
  match t.state with
  | .held _ => ({ t.load with state := .running p }, .ok)
  | _ => (t, .already)

/-- START_TIMER on an OPEN port (R34). -/
def State.startTimer (p : Port) (s : State) : State × ResultCode :=
  s.withOwnTimer p fun n s => (s.updTimer n fun t => (t.start p).1, ((s.timer n).start p).2)

/-- START_TIMER (R34), command code 12. -/
def execStartTimer (p : Port) (s : State) : Host.Outcome State Fault Refusal :=
  .next (s.command p 12 fun s => s.whenOpen p (State.startTimer p))

/-- STOP_TIMER by the timer's state, for its owner (R34): the count keeps the units left. -/
def Timer.stop (p : Port) (t : Timer) : Timer × ResultCode :=
  match t.state with
  | .running _ => ({ t with state := .held p }, .ok)
  | _ => (t, .already)

/-- STOP_TIMER on an OPEN port (R34). -/
def State.stopTimer (p : Port) (s : State) : State × ResultCode :=
  s.withOwnTimer p fun n s => (s.updTimer n fun t => (t.stop p).1, ((s.timer n).stop p).2)

/-- STOP_TIMER (R34), command code 13. -/
def execStopTimer (p : Port) (s : State) : Host.Outcome State Fault Refusal :=
  .next (s.command p 13 fun s => s.whenOpen p (State.stopTimer p))

/-- What an owned timer becomes when its ownership is given up (R35). -/
def Timer.release (t : Timer) : Timer :=
  match t.state with
  | .held _ => if t.refs = 0 then { t with state := .free, count := 0 } else { t with state := .orphanedStopped }
  | .running _ => if t.refs = 0 then { t with state := .free, count := 0 } else { t with state := .orphanedRunning }
  | .free | .orphanedRunning | .orphanedStopped => t

/-- RELEASE_TIMER on an OPEN port (R35). -/
def State.releaseTimer (p : Port) (s : State) : State × ResultCode :=
  s.withOwnTimer p fun n s => (s.updTimer n Timer.release, .ok)

/-- RELEASE_TIMER (R35), command code 14. -/
def execReleaseTimer (p : Port) (s : State) : Host.Outcome State Fault Refusal :=
  .next (s.command p 14 fun s => s.whenOpen p (State.releaseTimer p))

/-- The four timers. -/
def allTimers : List (Fin 4) := [0, 1, 2, 3]

/-- Every timer that the port owns is released (R36). -/
def State.releaseTimers (p : Port) (s : State) : State :=
  allTimers.foldl (fun s n =>
    if (s.timer n).state.owner = some p then s.updTimer n Timer.release else s) s

/-! ### Counting (R29) -/

/-- A counting timer's prescaler has completed a unit of the prescale in use. -/
def Timer.unitDue (t : Timer) : Bool := t.state.counting && t.prescaleInUse ≤ t.phase && 0 < t.count

/-- A counting timer's count has reached 0. -/
def Timer.expiryDue (t : Timer) : Bool := t.state.counting && t.count == 0

/-- TIMER_UNIT (R29): the count falls by one and the next unit begins. -/
def Timer.unit (t : Timer) : Timer :=
  if t.unitDue then { t with count := t.count - 1, phase := t.phase - t.prescaleInUse } else t

/-- TIMER_UNIT (R29). -/
def execTimerUnit (n : Fin 4) (s : State) : Host.Outcome State Fault Refusal := .next (s.updTimer n Timer.unit)

/-- TIMER_EXPIRY (R29): the timer reloads and delivers a trigger to every non-IDLE request naming it. -/
def State.timerExpiry (n : Fin 4) (s : State) : State :=
  if (s.timer n).expiryDue then
    let s := s.updTimer n Timer.load
    s.deliverTriggers (s.reached fun f => f.namesTimer n)
  else s

/-- TIMER_EXPIRY (R29). -/
def execTimerExpiry (n : Fin 4) (s : State) : Host.Outcome State Fault Refusal := .next (s.timerExpiry n)

end Sys2Proof.Machine
end

