-- ==== Sys2Proof/Machine/PortControl.lean ====
section
/-! DEFINITION. The Port Interface's own commands and the resets (chapter 10): UNKNOWN_COMMAND, OPEN, CLOSE,
RESET_PORT, PORT_RESET_LINE, PORT_RESET_LINE_RELEASE, DEVICE_RESET, DEVICE_RESET_END. -/
namespace Sys2Proof.Machine

/-! ### UNKNOWN_COMMAND -/

/-- UNKNOWN_COMMAND (R145): a code that names no command is answered UNKNOWN_COMMAND, the code recorded is 0, and
nothing else changes. A code that names a command is not this event. -/
def execUnknownCommand (p : Port) (code : Word) (s : State) : Host.Outcome State Fault Refusal :=
  .next (if 1 ≤ code.toNat ∧ code.toNat ≤ 23 then s else s.issue p code 0 fun s => (s, .unknownCommand))

/-! ### OPEN -/

/-- The ranges of a queue's configuration items (R130). -/
def QueueConfig.inRange (c : QueueConfig) : Bool :=
  c.size.toNat ≤ Config.maxQueueSize && c.mode.toNat ≤ 1 && c.watermark.toNat ≤ c.size.toNat

/-- Every queue configuration item lies in its range (R130, R147 check 2). -/
def PortConfig.inRange (c : PortConfig) : Bool :=
  c.q0.inRange && c.q1.inRange && c.timeoutSource.toNat ≤ 2 && 1 ≤ c.timeoutPreset.toNat

/-- OPEN (R147), its checks in their order. The pool check adds the issuing port's own sizes to those of every OPEN
port (R142). -/
def State.openPort (p : Port) (s : State) : State × ResultCode :=
  let ps := s.port p
  if ps.mode = .opened then (s, .already)
  else if !ps.config.inRange then (s, .badField)
  else if Config.poolEntries < s.poolUse + ps.poolShare then (s, .noRoom)
  else
    (s.updPort p fun ps =>
      { (({ ps with mode := .opened } : PortState).emptySamples).presetTimeout with completions := [] }, .ok)

/-- OPEN (R147), command code 1. -/
def execOpen (p : Port) (s : State) : Host.Outcome State Fault Refusal := .next (s.command p 1 (State.openPort p))

/-! ### CLOSE and port reset -/

/-- The completions of the port's sweeps that were read out before a CLOSE or port reset, and that the Request Table has not
yet taken, are taken before the postings end (R88). -/
def State.takePortReports (p : Port) (s : State) : State := s.takeReports fun i => slotOwner i == p

/-- Every posting of the port ends without a completion record (R17, R87). -/
def State.endPortPostings (p : Port) (s : State) : State := (portSlots p).foldl (fun s i => s.endPosting i none) s

/-- What a CLOSE or port reset does to the port's conversions (R68, R87-R89). If the removal of its selected record leaves
another port's result to be flushed in the same taking, whether the closing port is still offered that sample is free
(notes/assumptions/5.md). -/
def State.leavePipeline (p : Port) (s : State) : State :=
  let removed := s.seq.selected.any fun r => slotOwner r.slot == p
  let s := s.updSeq (Sequencer.retag p)
  let closing := if Config.orderBit s.freeCount then some p else none
  (if removed then s.afterRemoval closing else s).countFree

/-- The lease ends if the port holds it, without LEASE_LOST (R100). -/
def State.leaveLease (p : Port) (s : State) : State := if s.cal.lease.holder = some p then s.dropLease else s

/-- The queues, the latest-value slots and the completion queue are emptied, and the port becomes CLOSED (R148). -/
def PortState.shut (ps : PortState) : PortState := { ps.emptySamples with completions := [], mode := .closed }

/-- What CLOSE does on an OPEN port (R148), which is also the first part of a port reset of one (R149), once the completions
that were read out before it are taken (R88). The order of its parts is a DESIGN CHOICE, notes/assumptions/28.md: the postings' reservations return before the port evaluates a shared
sample that its own CLOSE flushes out, so that the sample may find room that the reservations held. -/
def State.closeEffects (p : Port) (s : State) : State :=
  (((((s.takePortReports p).endPortPostings p).leavePipeline p).releaseTimers p).leaveLease p).updPort p
    PortState.shut

/-- CLOSE (R148), command code 2; on a CLOSED port it is answered CLOSED. -/
def execClose (p : Port) (s : State) : Host.Outcome State Fault Refusal :=
  .next (s.command p 2 fun s => s.whenOpen p fun s => (s.closeEffects p, .ok))

/-- What a port reset does to the port beside the CLOSE (R149): configuration, filter list, unmatched action, flags,
enables, watched set, parameters and timeout counter at their reset values. The queues, latest-value slots and
completion queue are empty. The command word, the result word, the frame and the pin are left. -/
def PortState.clear (ps : PortState) : PortState :=
  { PortState.reset ps.lineLow with commandWord := ps.commandWord, result := ps.result, frame := ps.frame }

/-- A port reset (R149, R5): a CLOSE if the port is OPEN, and the return of the port and of its slots to their reset
values. -/
def State.portReset (p : Port) (s : State) : State :=
  let s := if (s.port p).mode = .opened then s.closeEffects p else s
  let s := s.updPort p PortState.clear
  (portSlots p).foldl (fun s i => s.updSlot i fun _ => Slot.reset) s

/-- A port reset and its answer (R145, R149). -/
def State.resetByCommand (p : Port) (s : State) : State × ResultCode := (s.portReset p, .ok)

/-- Whether a RESET_PORT of port `p` meets the line's reset, which has been taken first and has ended the frame (R149). -/
def State.meetsLineReset (s : State) (p : Port) : Bool :=
  (s.port p).lineLow && (s.port p).frame.isNone && (s.port p).lineCut == some s.now

/-- RESET_PORT (R149), command code 3, in either port state. A RESET_PORT that meets the line's reset is taken after it as
a second port reset, with its own answer, though the frame has ended. -/
def execResetPort (p : Port) (s : State) : Host.Outcome State Fault Refusal :=
  .next (if s.meetsLineReset p then
    ((s.updPort p fun ps => { ps with commandWord := 3 }).portReset p).updPort p (PortState.answer 3 .ok)
  else s.command p 3 (State.resetByCommand p))

/-- Whether a frame has come to the command word, so that the next word written issues a command (R144, R145). -/
def Frame.atCommand (f : Frame) : Bool := f.write && !f.ignored && f.address == 0x01C

/-- PORT_RESET_LINE (R149): the reset is taken, any frame in progress ends, the result word holds OK, code 0 and count 0,
and the port ignores its frames while the line is low. A line that is low already does not go low again
(notes/assumptions/3.md). -/
def State.portResetLine (p : Port) (s : State) : State :=
  if (s.port p).lineLow then s
  else (s.portReset p).updPort p fun ps =>
    { ps with lineLow := true, frame := none, result := ResultWord.reset
              lineCut := if (s.port p).frame.any Frame.atCommand then some s.now else none }

/-- PORT_RESET_LINE (R149). -/
def execPortResetLine (p : Port) (s : State) : Host.Outcome State Fault Refusal := .next (s.portResetLine p)

/-- PORT_RESET_LINE_RELEASE (R149): the port takes frames again. -/
def execPortResetLineRelease (p : Port) (s : State) : Host.Outcome State Fault Refusal :=
  .next (s.updPort p fun ps => { ps with lineLow := false })

/-! ### Device reset (R150) -/

/-- The lines with the reset values of R37 and the levels the pins have. -/
def resetLines (lines : Vector Line 4) : Vector Line 4 :=
  #v[Line.reset (tget lines 0).input, Line.reset (tget lines 1).input, Line.reset (tget lines 2).input,
     Line.reset (tget lines 3).input]

/-- Every block at its reset values (R150), with the nonvolatile records kept (R108, R116), the pins as they are, and the
waiting commands left waiting. The store is LOADING, from channel 0 (R114). A frame in progress is ended: DESIGN CHOICE,
notes/assumptions/36.md. -/
def State.resetAll (inReset : Bool) (s : State) : State :=
  let s' := { State.reset with
    inReset := inReset
    ports := ⟨PortState.reset s.ports.a.lineLow, PortState.reset s.ports.b.lineLow, PortState.reset s.ports.c.lineLow⟩
    lines := resetLines s.lines
    store := { s.store with op := .loading 0, opEnd := 0 }
    freeCount := s.freeCount, pending := s.pending }
  { s' with store := { s'.store with opEnd := s'.readingTime 0 } }

/-- DEVICE_RESET (R150): power-on, or nRESET has been low for 1 µs. A reset that lasts already does not begin again. -/
def execDeviceReset (s : State) : Host.Outcome State Fault Refusal :=
  .next (if s.inReset then s else s.resetAll true)

/-- DEVICE_RESET_END (R150): the reset ends, the timestamp counter counts from 0, the qualified levels are the inputs'
present levels (R37) and the store load begins (R114). -/
def execDeviceResetEnd (s : State) : Host.Outcome State Fault Refusal :=
  .next (if s.inReset then s.resetAll false else s)

end Sys2Proof.Machine
end

