-- ==== Sys2Proof/Machine/Requests.lean ====
section
/-! DEFINITION. The commands of the Request Table and the software trigger: POST, CANCEL, TRIGGER, POP_COMPLETION
(R6-R9, R76-R83, R40, R22). -/
namespace Sys2Proof.Machine

/-! ### POST -/

/-- The target check of POST: whether the target is usable (R8). -/
def PortState.targetUsable (ps : PortState) (f : SlotFields) : Bool :=
  match f.targetOf with
  | some (.slots base) => base + f.scanLength.toNat - 1 ≤ 15
  | some (.queue q) => ps.queueSize q != 0
  | some .none => f.share
  | none => false

/-- The policy check of POST: whether the policy is usable (R8). -/
def PortState.policyUsable (ps : PortState) (f : SlotFields) : Bool :=
  if f.policyOf = some .stall then
    match f.targetOf with
    | some (.queue q) => !ps.overwrites q && f.scanLength.toNat ≤ ps.queueSize q
    | _ => false
  else true

/-- A TIMER source names a timer that is not FREE; any other source passes (R6 check 5, R39). -/
def State.sourceUsable (s : State) (f : SlotFields) : Bool :=
  match f.sourceOf with
  | some (.timer n) => (s.timer n).state != .free
  | _ => true

/-- The answer of POST for a slot of the issuing port, checks 3 to 7 in their order (R6). -/
def State.postAnswer (s : State) (i : SlotId) : ResultCode :=
  let x := s.slot i
  let ps := s.port (slotOwner i)
  if x.state ≠ .idle then .notIdle
  else if !x.fields.inRange then .badField
  else if !s.sourceUsable x.fields then .badTrigger
  else if !ps.targetUsable x.fields then .badTarget
  else if !ps.policyUsable x.fields then .badPolicy
  else .ok

/-- One reference of a timer is taken (R9, R30). -/
def Timer.addRef (t : Timer) : Timer := { t with refs := t.refs + 1 }

/-- A posting with these fields takes its timer reference, if its source is a timer (R9). -/
def State.addTimerRef (f : SlotFields) (s : State) : State :=
  match f.sourceOf with
  | some (.timer n) => s.updTimer n Timer.addRef
  | _ => s

/-- The slot of a posting taken: counters 0, pending trigger clear, passed-over count 0, ARMED (R9). -/
def Slot.posted (x : Slot) : Slot :=
  { x with state := .armed, counters := Counters.zero, pendingTrigger := false, passedOver := 0 }

/-- A POST that passes its checks is taken: an IMMEDIATE request becomes DUE, any other ARMED (R9). -/
def State.takePost (i : SlotId) (s : State) : State :=
  let f := (s.slot i).fields
  let s := (s.updSlot i Slot.posted).addTimerRef f
  if f.sourceOf = some .immediate then s.makeDue [i] else s

/-- POST on an OPEN port (R6). -/
def State.post (p : Port) (s : State) : State × ResultCode :=
  match ownSlot p (s.param p 0) with
  | none => (s, .notOwner)
  | some i =>
    let r := s.postAnswer i
    if r = .ok then (s.takePost i, .ok) else (s, r)

/-- POST (R6), command code 4. -/
def execPost (p : Port) (s : State) : Host.Outcome State Fault Refusal :=
  .next (s.command p 4 fun s => s.whenOpen p (State.post p))

/-! ### CANCEL -/

/-- The Request Table hands a cut for the slot's sweep to the sequencer (R79, R83). -/
def State.handCut (i : SlotId) (s : State) : State := { s with seq := { s.seq with cuts := s.seq.cuts ++ [i] } }

/-- A CANCEL that passes its checks, by the request's state (R76-R79, R83). -/
def State.takeCancel (i : SlotId) (mode : CancelMode) (s : State) : State × ResultCode :=
  match (s.slot i).state, mode with
  | .idle, _ => (s, .notActive)
  | .armed, _ | .due, _ | .stalled, _ => (s.endPosting i (some .cancelled), .ok)
  | .running, .finish => (s.updSlot i fun x => { x with state := .draining ⟨.cancel, false⟩ }, .ok)
  | .running, .cut => ((s.updSlot i fun x => { x with state := .draining ⟨.cancel, true⟩ }).handCut i, .ok)
  | .draining ⟨cause, false⟩, .cut => ((s.updSlot i fun x => { x with state := .draining ⟨cause, true⟩ }).handCut i, .ok)
  | .draining ⟨_, false⟩, .finish => (s, .already)
  | .draining ⟨_, true⟩, _ => (s, .already)

/-- CANCEL on an OPEN port, checks 2 to 4 in their order (R76). -/
def State.cancel (p : Port) (s : State) : State × ResultCode :=
  match ownSlot p (s.param p 0) with
  | none => (s, .notOwner)
  | some i =>
    match cancelMode (s.param p 1) with
    | none => (s, .badField)
    | some mode => s.takeCancel i mode

/-- CANCEL (R76), command code 5. -/
def execCancel (p : Port) (s : State) : Host.Outcome State Fault Refusal :=
  .next (s.command p 5 fun s => s.whenOpen p (State.cancel p))

/-! ### TRIGGER -/

/-- TRIGGER on an OPEN port, checks 2 to 4 in their order (R40). -/
def State.trigger (p : Port) (s : State) : State × ResultCode :=
  match ownSlot p (s.param p 0) with
  | none => (s, .notOwner)
  | some i =>
    if (s.slot i).fields.sourceOf ≠ some .command then (s, .badField)
    else if (s.slot i).state = .idle then (s, .notActive)
    else (s.deliverTriggers [i], .ok)

/-- TRIGGER (R40), command code 6. -/
def execTrigger (p : Port) (s : State) : Host.Outcome State Fault Refusal :=
  .next (s.command p 6 fun s => s.whenOpen p (State.trigger p))

/-! ### POP_COMPLETION -/

/-- POP_COMPLETION, in either port state: the oldest record is removed, or the answer is EMPTY (R22). -/
def State.popCompletion (p : Port) (s : State) : State × ResultCode :=
  match (s.port p).completions with
  | [] => (s, .empty)
  | _ :: rest => (s.updPort p fun ps => { ps with completions := rest }, .ok)

/-- POP_COMPLETION (R22), command code 9. -/
def execPopCompletion (p : Port) (s : State) : Host.Outcome State Fault Refusal :=
  .next (s.command p 9 (State.popCompletion p))

end Sys2Proof.Machine
end

