-- ==== Sys2Proof/Machine/Lines.lean ====
section
/-! DEFINITION. The trigger lines (R37-R39): SET_LINE, LINE_INPUT_CHANGE and LINE_QUALIFICATION_END. -/
namespace Sys2Proof.Machine

/-- Whether a non-IDLE request of any port names the line (R38 check 3). -/
def State.lineInUse (s : State) (n : Fin 4) : Bool := !(s.reached fun f => f.namesLine n).isEmpty

/-- A line with new settings: any qualification is abandoned and the qualified level is the input's, without an edge
(R38). -/
def Line.configure (e : EdgeSetting) (d : Debounce) (l : Line) : Line :=
  { l with edge := e, debounce := d, level := l.input, candidate := none }

/-- SET_LINE on an OPEN port, checks 2 and 3 in their order (R38). -/
def State.setLine (p : Port) (s : State) : State × ResultCode :=
  match lineNumber (s.param p 0), edgeSetting (s.param p 1), debounceSetting (s.param p 2) with
  | some n, some e, some d =>
    if s.lineInUse n then (s, .inUse) else (s.updLine n (Line.configure e d), .ok)
  | _, _, _ => (s, .badField)

/-- SET_LINE (R38), command code 15. -/
def execSetLine (p : Port) (s : State) : Host.Outcome State Fault Refusal :=
  .next (s.command p 15 fun s => s.whenOpen p (State.setLine p))

/-- Whether a qualified change to `level` is an edge of the configured kind (R37). -/
def EdgeSetting.triggers (e : EdgeSetting) (level : Bool) : Bool :=
  match e with
  | .rising => level
  | .falling => !level
  | .both => true

/-- A qualified change of line `n` to `level`: the qualified level changes, any qualification is removed, and an edge of
the configured kind delivers a trigger to every non-IDLE request naming the line (R37, R24). -/
def State.qualifiedChange (n : Fin 4) (level : Bool) (s : State) : State :=
  let triggers := (s.line n).edge.triggers level
  let s := s.updLine n fun l => { l with level := level, candidate := none }
  if triggers then s.deliverTriggers (s.reached fun f => f.namesLine n) else s

/-- LINE_INPUT_CHANGE (R37). While a device reset lasts only the pin changes (R150). -/
def State.lineInputChange (n : Fin 4) (level : Bool) (s : State) : State :=
  if (s.line n).input = level then s
  else
    let s := s.updLine n fun l => { l with input := level }
    if s.inReset then s
    else if (s.line n).level = level then s.updLine n fun l => { l with candidate := none }
    else if (s.line n).debounce = .none then s.qualifiedChange n level
    else if (s.line n).candidate.isSome then s
    else s.updLine n fun l => { l with candidate := some ⟨level, s.now + l.debounce.time⟩ }

/-- LINE_INPUT_CHANGE (R37). -/
def execLineInputChange (n : Fin 4) (level : Bool) (s : State) : Host.Outcome State Fault Refusal :=
  .next (s.lineInputChange n level)

/-- Whether the end of the line's qualification is reached (R37). -/
def State.qualificationDue (s : State) (n : Fin 4) : Bool := (s.line n).candidate.any fun c => c.endTime ≤ s.now

/-- LINE_QUALIFICATION_END (R37): the qualified level becomes the candidate level. -/
def State.lineQualificationEnd (n : Fin 4) (s : State) : State :=
  if s.qualificationDue n then
    match (s.line n).candidate with
    | some c => s.qualifiedChange n c.level
    | none => s
  else s

/-- LINE_QUALIFICATION_END (R37). -/
def execLineQualificationEnd (n : Fin 4) (s : State) : Host.Outcome State Fault Refusal :=
  .next (s.lineQualificationEnd n)

end Sys2Proof.Machine
end

