-- ==== Sys2Proof/Machine/Queues.lean ====
section
/-! DEFINITION. The commands and events of Sample Memory: ACK_QUEUE (R135), RELEASE_SLOTS (R141), QUEUE_TIMEOUT_TICK
and QUEUE_TIMEOUT_EXPIRY (R138). -/
namespace Sys2Proof.Machine

/-- ACK_QUEUE on an OPEN port: an accepted acknowledgement lowers the fill, and the increase of room is examined in the
same taking (R135, R51). -/
def State.ackQueue (p : Port) (s : State) : State × ResultCode :=
  match queueNumber (s.param p 0) with
  | none => (s, .badField)
  | some q =>
    let number := s.param p 1
    match (s.port p).ackAnswer q number with
    | .ok => ((s.updPort p (PortState.acknowledge q number)).returnStalled p q, .ok)
    | r => (s, r)

/-- ACK_QUEUE (R135), command code 7. -/
def execAckQueue (p : Port) (s : State) : Host.Outcome State Fault Refusal :=
  .next (s.command p 7 fun s => s.whenOpen p (State.ackQueue p))

/-- RELEASE_SLOTS on an OPEN port (R141). -/
def State.releaseSlots (p : Port) (s : State) : State × ResultCode :=
  (s.updPort p (PortState.releaseLatest (s.param p 0)), .ok)

/-- RELEASE_SLOTS (R141), command code 8. -/
def execReleaseSlots (p : Port) (s : State) : Host.Outcome State Fault Refusal :=
  .next (s.command p 8 fun s => s.whenOpen p (State.releaseSlots p))

/-- QUEUE_TIMEOUT_TICK (R138). -/
def execQueueTimeoutTick (p : Port) (s : State) : Host.Outcome State Fault Refusal :=
  .next (s.updPort p PortState.timeoutTick)

/-- QUEUE_TIMEOUT_EXPIRY (R138). -/
def execQueueTimeoutExpiry (p : Port) (s : State) : Host.Outcome State Fault Refusal :=
  .next (s.updPort p PortState.timeoutExpiry)

end Sys2Proof.Machine
end

