-- ==== Sys2Proof/Machine/Arbiter.lean ====
section
/-! DEFINITION. The Converter Arbiter (chapter 3): the choice of the winner, the room check, and GRANT. -/
namespace Sys2Proof.Machine

/-- A member's effective priority: 0 when its passed-over count is 8, else its own priority (R48). -/
def Slot.effectivePriority (x : Slot) : Nat :=
  if x.passedOver = Config.agingLimit then 0 else x.fields.priority.toNat

/-- The place of a port in port rotation starting with the port after the last-granted port (R47, key 3). -/
def rotationRank (last p : Port) : Nat := (portCode p + 2 - portCode last) % 3

/-- The selection keys of a member (R47). -/
structure SelectionKey where
  priority : Nat
  stamp : Nat
  rotation : Nat
  slot : Nat
  deriving DecidableEq, Repr

/-- The selection keys of slot `i`: effective priority, place of its stamp in the stamp order, port rotation, slot number
(R47). -/
def State.selectionKey (s : State) (i : SlotId) : SelectionKey :=
  { priority := (s.slot i).effectivePriority, stamp := s.arbiter.stampOrder.idxOf (s.slot i).dueStamp
    rotation := rotationRank s.arbiter.lastGranted (slotOwner i), slot := i.val }

/-- A key is preferred to another: the keys are compared in turn, a later one only on a tie of every earlier one (R47). -/
def SelectionKey.before (a b : SelectionKey) : Bool :=
  a.priority < b.priority || (a.priority == b.priority &&
    (a.stamp < b.stamp || (a.stamp == b.stamp &&
      (a.rotation < b.rotation || (a.rotation == b.rotation && a.slot < b.slot)))))

/-- The preferred one of two members. -/
def State.preferred (s : State) (i j : SlotId) : SlotId :=
  if (s.selectionKey j).before (s.selectionKey i) then j else i

/-- The candidate: the member of the due list that R47 prefers. -/
def State.candidate (s : State) : Option SlotId :=
  match s.dueList with
  | [] => none
  | i :: rest => some (rest.foldl s.preferred i)

/-- The room check (R49): a DROP candidate passes without one; a STALL candidate needs room for its scan length. -/
def State.passesRoomCheck (s : State) (i : SlotId) : Bool :=
  let f := (s.slot i).fields
  if f.policyOf = some .stall then
    match f.targetOf with
    | some (.queue q) => f.scanLength.toNat ≤ (s.port (slotOwner i)).room q
    | _ => true
  else true

/-- A candidate that fails the room check goes to STALLED, and STALLED is raised at its owner (R12, R49). -/
def State.stall (i : SlotId) (s : State) : State :=
  (s.updSlot i fun x => { x with state := .stalled }).raise (slotOwner i) .stalled

/-- The choice of R47, made again after each failed room check, among at most `n` candidates (R49). -/
def State.chooseWinner : Nat → State → State × Option SlotId
  | 0, s => (s, none)
  | n + 1, s =>
    match s.candidate with
    | none => (s, none)
    | some i => if s.passesRoomCheck i then (s, some i) else State.chooseWinner n (s.stall i)

/-- Whether a request has the STALL policy. -/
def SlotFields.stalls (f : SlotFields) : Bool := f.policyOf == some .stall

/-- The winner's reservation: its target queue's reserved count, and what the posting holds, rise by its scan length (R50
step 1, R134). -/
def State.reserve (i : SlotId) (s : State) : State :=
  let f := (s.slot i).fields
  if f.stalls then
    match f.targetOf with
    | some (.queue q) =>
      (s.updPort (slotOwner i) fun ps => ps.updRing q fun r => { r with reserved := r.reserved + f.scanLength.toNat }).updSlot
        i fun x => { x with held := x.held + f.scanLength.toNat }
    | _ => s
  else s

/-- The winner's passed-over count becomes 0, every other member's rises up to the limit (R48, R50 step 2). -/
def State.age (winner : SlotId) (s : State) : State :=
  s.dueList.foldl (fun s i => s.updSlot i fun x =>
    { x with passedOver := if i = winner then 0 else min (x.passedOver + 1) Config.agingLimit }) s

/-- The sweep index of the sweep that a slot is granted next: its sweeps done modulo 65536 (R11). -/
def Slot.nextSweepIndex (x : Slot) : Word := x.counters.sweepsDone.low

/-- A grant with a winner, in the order of R50. -/
def State.grantTo (i : SlotId) (s : State) : State :=
  let s := s.reserve i
  let s := s.age i
  let s := { s with arbiter := { s.arbiter with lastGranted := slotOwner i } }
  let s := (s.updSlot i fun x => { x with state := .running }).pruneStamps
  let x := s.slot i
  let s := s.updSeq fun q => { q with active := some ⟨i, x.nextSweepIndex⟩ }
  s.updSeq (Sequencer.select s.now (sweepRecord i x.nextSweepIndex x.fields 0 0))

/-- The arbiter's grant, made when the four conditions of R44 hold: it fills the register with the first conversion of
the winner's sweep, or moves every candidate to STALLED (R44, R49, R50). -/
def State.grant (s : State) : State :=
  if s.grantDue then
    match s.chooseWinner 24 with
    | (s, some i) => s.grantTo i
    | (s, none) => s
  else s

/-- GRANT (R50). -/
def execGrant (s : State) : Host.Outcome State Fault Refusal := .next s.grant

end Sys2Proof.Machine
end

