-- ==== Sys2Proof/Machine/Sequencer.lean ====
section
/-! DEFINITION. The Conversion Sequencer's events and its command (chapters 4 and 5): START_CONVERSION,
CONVERTER_DONE, DONE_TIMEOUT, CUT, RESTART_CONVERTER and TIME_WRAP. -/
namespace Sys2Proof.Machine

/-- START_CONVERSION (R62). The report of a sweep that the readout completes is taken at once, or waits for the Request
Table, so that a grant which the START makes possible, or any other event, may come first, as `taking` says (R62, R46,
notes/assumptions/4.md). Before the selected record's settled time, or while a conversion is converting, no START is made. -/
def State.startConversion (taking : ReportTaking) (s : State) : State :=
  if s.startDue then
    match s.seq.selected with
    | some r => (s.startSelected r).takeReportsWhen taking
    | none => s
  else s

/-- START_CONVERSION (R62). -/
def execStartConversion (taking : ReportTaking) (s : State) : Host.Outcome State Fault Refusal :=
  .next (s.startConversion taking)

/-- CONVERTER_DONE (R63). The report of a sweep that a FLUSH's readout completes is taken at once or waits, as `taking` says
(R46). A done that arrives while no conversion is converting is ignored (R57, R71). -/
def State.converterDone (raw : Word) (taking : ReportTaking) (s : State) : State :=
  if s.seq.converting.isSome then (s.endConversion raw).takeReportsWhen taking else s

/-- CONVERTER_DONE (R63). -/
def execConverterDone (done : ConversionEnd) (s : State) : Host.Outcome State Fault Refusal :=
  .next (s.converterDone done.raw done.taking)

/-- Whether the done timeout is reached with a conversion still converting (R69). -/
def State.doneTimeoutDue (s : State) : Bool := s.seq.converting.isSome && s.seq.doneTimeout.any fun t => t ≤ s.now

/-- DONE_TIMEOUT (R69): in READY a converter fault (R70), in RESTARTING the failure of the restart (R73). -/
def State.doneTimeout (s : State) : State :=
  if s.doneTimeoutDue then
    match s.seq.link with
    | .ready => s.converterFault
    | .restarting => s.restartFailure
    | .faulted => s
  else s

/-- DONE_TIMEOUT (R69). -/
def execDoneTimeout (s : State) : Host.Outcome State Fault Refusal := .next s.doneTimeout

/-- CUT (R80): taken only if a cut for the slot's sweep has been handed to the sequencer (R79, R83). -/
def State.cut (i : SlotId) (s : State) : State := if i ∈ s.seq.cuts then s.takeCut i else s

/-- CUT (R80). -/
def execCut (i : SlotId) (s : State) : Host.Outcome State Fault Refusal := .next (s.cut i)

/-- RESTART_CONVERTER on an OPEN port (R72): in FAULTED a DUMMY conversion is started on the selected channel. -/
def State.restartConverter (s : State) : State × ResultCode :=
  match s.seq.link with
  | .faulted =>
    let s := s.updSeq fun q => { q with link := .restarting, buffer := none }
    (s.beginConversion (.dummy s.seq.selectedChannel), .accepted)
  | .ready | .restarting => (s, .already)

/-- RESTART_CONVERTER (R72), command code 23. -/
def execRestartConverter (p : Port) (s : State) : Host.Outcome State Fault Refusal :=
  .next (s.command p 23 fun s => s.whenOpen p State.restartConverter)

end Sys2Proof.Machine
end

