-- ==== Sys2Proof/Machine/Store.lean ====
section
/-! DEFINITION. The ends of the Coefficient Store's operations and the Calibration Unit's taking of its reports:
STORE_WRITE_END (R111, R104, R105), STORE_READ_END (R112, R106), LOAD_CHANNEL_END (R114, R115). -/
namespace Sys2Proof.Machine

/-- Whether the operation of the store has reached its end. None does while a device reset lasts (R114, R116). -/
def State.storeEndDue (s : State) : Bool := !s.inReset && s.store.opEnd ≤ s.now

/-- The store becomes IDLE. -/
def State.storeIdle (s : State) : State := { s with store := { s.store with op := .idle } }

/-- The commit record is emptied (R103). -/
def State.emptyCommit (s : State) : State := { s with cal := { s.cal with commit := none } }

/-- The result of a write, raised at the initiating port whatever its state (R103). -/
def storeEvent (verified : Bool) : Event := if verified then .storeDone else .storeFailed

/-- A COMMIT's verified write installs the capture with source FIELD and removes an equal provisional part; either way
commit pending becomes no (R104). -/
def CalEntry.commitEnd (verified : Bool) (c : Coefficients) (e : CalEntry) : CalEntry :=
  if verified then
    { committed := c, source := .field, provisional := if e.provisional = some c then none else e.provisional
      commitPending := false }
  else { e with commitPending := false }

/-- A BURN_FACTORY's verified write installs the burned values with source FACTORY if the source is DEFAULT (R105). -/
def CalEntry.burnEnd (verified : Bool) (c : Coefficients) (e : CalEntry) : CalEntry :=
  if verified && e.source == .default then { e with committed := c, source := .factory } else e

/-- The Calibration Unit takes the report of a write (R104, R105). -/
def State.takeWriteReport (verified : Bool) (s : State) : State :=
  match s.cal.commit with
  | some ⟨.commit c, ch, p⟩ =>
    ((s.updCalEntry ch (CalEntry.commitEnd verified c)).emptyCommit).raise p (storeEvent verified)
  | some ⟨.burnFactory c, ch, p⟩ =>
    ((s.updCalEntry ch (CalEntry.burnEnd verified c)).emptyCommit).raise p (storeEvent verified)
  | some ⟨.reload, _, _⟩ => s
  | none => s

/-- The record of a finished write: VALID with the values it was given, or INVALID (R111). -/
def writtenRecord (verified : Bool) (c : Coefficients) : StoreRecord := if verified then .valid c else .invalid

/-- STORE_WRITE_END (R111): the end of the write, the store's return to IDLE and the taking of the report are one
taking. -/
def State.storeWriteEnd (verified : Bool) (s : State) : State :=
  if s.storeEndDue then
    match s.store.op with
    | .writingField ch c => ((s.setFieldRecord ch (writtenRecord verified c)).storeIdle).takeWriteReport verified
    | .writingFactory ch c => ((s.setFactoryRecord ch (writtenRecord verified c)).storeIdle).takeWriteReport verified
    | .loading _ | .idle | .reading _ => s
  else s

/-- STORE_WRITE_END (R111). -/
def execStoreWriteEnd (verified : Bool) (s : State) : Host.Outcome State Fault Refusal := .next (s.storeWriteEnd verified)

/-- What the records of a channel give: the VALID field record, else the VALID factory record, else DEFAULT (R106,
R114). -/
def State.recordsGive (s : State) (ch : Channel) : Coefficients × CommittedSource :=
  match s.fieldRecord ch with
  | .valid c => (c, .field)
  | .unwritten | .invalid =>
    match s.factoryRecord ch with
    | .valid c => (c, .factory)
    | .unwritten | .invalid => (Coefficients.unity, .default)

/-- The committed part of a channel is set from its records (R106, R114). -/
def State.installRecords (ch : Channel) (s : State) : State :=
  s.updCalEntry ch fun e => { e with committed := (s.recordsGive ch).1, source := (s.recordsGive ch).2 }

/-- STORE_READ_END (R112, R106). -/
def State.storeReadEnd (s : State) : State :=
  if s.storeEndDue then
    match s.store.op with
    | .reading ch =>
      let s := (s.installRecords ch).storeIdle
      match s.cal.commit with
      | some r => s.emptyCommit.raise r.initiator .storeDone
      | none => s
    | .loading _ | .idle | .writingField _ _ | .writingFactory _ _ => s
  else s

/-- STORE_READ_END (R112). -/
def execStoreReadEnd (s : State) : Host.Outcome State Fault Refusal := .next s.storeReadEnd

/-- LOAD_CHANNEL_END (R114, R115): the channel's committed part is set and the load moves on, or ends with LOAD_DONE at
every port after channel 31. -/
def State.loadChannelEnd (s : State) : State :=
  if s.storeEndDue then
    match s.store.op with
    | .loading ch =>
      let s := s.installRecords ch
      if ch = 31 then s.storeIdle.raiseAll .loadDone
      else s.startStore (.loading (ch + 1)) (s.readingTime (ch + 1))
    | .idle | .reading _ | .writingField _ _ | .writingFactory _ _ => s
  else s

/-- LOAD_CHANNEL_END (R114). -/
def execLoadChannelEnd (s : State) : Host.Outcome State Fault Refusal := .next s.loadChannelEnd

end Sys2Proof.Machine
end

