-- ==== Sys2Proof/Machine/Time.lean ====
section
/-! DEFINITION. The passing of time (R74, R28, R96, R138), TIME_WRAP, and the internal event that is due when no command
waits (notes/assumptions/1.md, 2.md). -/
namespace Sys2Proof.Machine

/-- A counting timer's prescaler phase advances (R28). -/
def Timer.tick (t : Timer) : Timer := if t.state.counting then { t with phase := t.phase + 1 } else t

/-- A microsecond of the unit of a COUNTING queue timeout counter (R138). -/
def PortState.tick (ps : PortState) : PortState :=
  if ps.timeout.state = .counting then { ps with timeout := { ps.timeout with elapsed := ps.timeout.elapsed + 1 } } else ps

/-- The remaining time counts down while there is a holder (R96). -/
def Lease.tick (l : Lease) : Lease := if l.holder.isSome then { l with remaining := l.remaining - 1 } else l

/-- One microsecond passes. While a device reset lasts, nothing counts (R150). -/
def State.passMicrosecond (s : State) : State :=
  if s.inReset then s
  else
    let s := { s with now := s.now + 1 }
    let s := allTimers.foldl (fun s n => s.updTimer n Timer.tick) s
    let s := allPorts.foldl (fun s p => s.updPort p PortState.tick) s
    s.updLease Lease.tick

/-- Whether the next microsecond returns the timestamp counter to 0 (R74). -/
def State.wrapDue (s : State) : Bool := !s.inReset && s.timestamp == 4294967295

/-- TIME_WRAP (R74): the microsecond that returns the counter from 4294967295 to 0 passes, and TIME_WRAP is raised at A,
B and C. -/
def execTimeWrap (s : State) : Host.Outcome State Fault Refusal :=
  .next (if s.wrapDue then s.passMicrosecond.raiseAll .timeWrap else s)

/-- The part's own events, each with whether it is due, in the order in which an empty queue takes them (DESIGN CHOICE,
notes/assumptions/2.md). CONVERTER_DONE and STORE_WRITE_END are not among them: what they bring comes from outside. -/
def State.internalEvents (s : State) : List (Bool × Instr) :=
  allTimers.map (fun n => ((s.timer n).unitDue, .timerUnit n)) ++
  allTimers.map (fun n => ((s.timer n).expiryDue, .timerExpiry n)) ++
  allPorts.map (fun p => ((s.port p).timeoutTickDue, .queueTimeoutTick p)) ++
  allPorts.map (fun p => ((s.port p).timeoutExpiryDue, .queueTimeoutExpiry p)) ++
  [(s.cal.lease.expiryDue, .leaseExpiry)] ++
  allTimers.map (fun n => (s.qualificationDue n, .lineQualificationEnd n)) ++
  [(s.storeEndDue && s.store.op.code == 2, .storeReadEnd), (s.storeEndDue && s.store.op.code == 0, .loadChannelEnd),
   (s.doneTimeoutDue && s.seq.link != .faulted, .doneTimeout)] ++
  s.seq.cuts.map (fun i => (true, .cut i)) ++
  [(s.startDue, .startConversion .atOnce), (s.grantDue, .grant), (s.wrapDue, .timeWrap)]

/-- The internal event that an empty queue takes next, if one is due. None is while a device reset lasts. -/
def State.dueEvent (s : State) : Option Instr :=
  if s.inReset then none else (s.internalEvents.find? fun e => e.1).map fun e => e.2

/-- Whether the report of a completed sweep waits for the Request Table, which takes it as an event of its own
(notes/assumptions/4.md). -/
def State.reportDue (s : State) : Bool := !s.inReset && !s.seq.reports.isEmpty

end Sys2Proof.Machine
end

