-- ==== Sys2Proof/Machine/Dispatch.lean ====
section
/-! DEFINITION. The dispatch of the commands to their meanings. -/
namespace Sys2Proof.Machine

def exec (i : Instr) (s : State) : Host.Outcome State Fault Refusal :=
  match i with
  | .frameHeader p header => Sys2Proof.Machine.execFrameHeader p header s
  | .frameEnd p => Sys2Proof.Machine.execFrameEnd p s
  | .writeWord p value => Sys2Proof.Machine.execWriteWord p value s
  | .slotFieldWrite p value => Sys2Proof.Machine.execSlotFieldWrite p value s
  | .configurationWrite p value => Sys2Proof.Machine.execConfigurationWrite p value s
  | .eventFlagWrite p value => Sys2Proof.Machine.execEventFlagWrite p value s
  | .eventEnableWrite p value => Sys2Proof.Machine.execEventEnableWrite p value s
  | .watchedChannelWrite p value => Sys2Proof.Machine.execWatchedChannelWrite p value s
  | .timestampLowRead p => Sys2Proof.Machine.execTimestampLowRead p s
  | .counterLowWordRead p slot counter => Sys2Proof.Machine.execCounterLowWordRead p slot counter s
  | .recordFirstWordRead p holder => Sys2Proof.Machine.execRecordFirstWordRead p holder s
  | .resultWordRead p => Sys2Proof.Machine.execResultWordRead p s
  | .unknownCommand p code => Sys2Proof.Machine.execUnknownCommand p code s
  | .openPort p => Sys2Proof.Machine.execOpen p s
  | .closePort p => Sys2Proof.Machine.execClose p s
  | .resetPort p => Sys2Proof.Machine.execResetPort p s
  | .post p => Sys2Proof.Machine.execPost p s
  | .cancel p => Sys2Proof.Machine.execCancel p s
  | .trigger p => Sys2Proof.Machine.execTrigger p s
  | .ackQueue p => Sys2Proof.Machine.execAckQueue p s
  | .releaseSlots p => Sys2Proof.Machine.execReleaseSlots p s
  | .popCompletion p => Sys2Proof.Machine.execPopCompletion p s
  | .claimTimer p => Sys2Proof.Machine.execClaimTimer p s
  | .setTimer p => Sys2Proof.Machine.execSetTimer p s
  | .startTimer p => Sys2Proof.Machine.execStartTimer p s
  | .stopTimer p => Sys2Proof.Machine.execStopTimer p s
  | .releaseTimer p => Sys2Proof.Machine.execReleaseTimer p s
  | .setLine p => Sys2Proof.Machine.execSetLine p s
  | .lease p => Sys2Proof.Machine.execLease p s
  | .endLease p => Sys2Proof.Machine.execEndLease p s
  | .setProvisional p => Sys2Proof.Machine.execSetProvisional p s
  | .dropProvisional p => Sys2Proof.Machine.execDropProvisional p s
  | .commit p => Sys2Proof.Machine.execCommit p s
  | .burnFactory p => Sys2Proof.Machine.execBurnFactory p s
  | .reload p => Sys2Proof.Machine.execReload p s
  | .restartConverter p => Sys2Proof.Machine.execRestartConverter p s
  | .deviceReset => Sys2Proof.Machine.execDeviceReset s
  | .deviceResetEnd => Sys2Proof.Machine.execDeviceResetEnd s
  | .portResetLine p => Sys2Proof.Machine.execPortResetLine p s
  | .portResetLineRelease p => Sys2Proof.Machine.execPortResetLineRelease p s
  | .lineInputChange line level => Sys2Proof.Machine.execLineInputChange line level s
  | .lineQualificationEnd line => Sys2Proof.Machine.execLineQualificationEnd line s
  | .timerUnit timer => Sys2Proof.Machine.execTimerUnit timer s
  | .timerExpiry timer => Sys2Proof.Machine.execTimerExpiry timer s
  | .grant => Sys2Proof.Machine.execGrant s
  | .startConversion taking => Sys2Proof.Machine.execStartConversion taking s
  | .converterDone done => Sys2Proof.Machine.execConverterDone done s
  | .doneTimeout => Sys2Proof.Machine.execDoneTimeout s
  | .cut slot => Sys2Proof.Machine.execCut slot s
  | .timeWrap => Sys2Proof.Machine.execTimeWrap s
  | .queueTimeoutTick p => Sys2Proof.Machine.execQueueTimeoutTick p s
  | .queueTimeoutExpiry p => Sys2Proof.Machine.execQueueTimeoutExpiry p s
  | .leaseExpiry => Sys2Proof.Machine.execLeaseExpiry s
  | .storeWriteEnd verified => Sys2Proof.Machine.execStoreWriteEnd verified s
  | .storeReadEnd => Sys2Proof.Machine.execStoreReadEnd s
  | .loadChannelEnd => Sys2Proof.Machine.execLoadChannelEnd s

end Sys2Proof.Machine
end

