-- ==== Sys2Proof/Machine/Step.lean ====
section
/-! DEFINITION. One step: the command at the front of the queue, or, with no command waiting, the internal event that is
due, or a microsecond. -/
namespace Sys2Proof.Machine

/-- A step takes the command at the front of the queue and answers its outcome. On an empty queue the part runs by itself
(DESIGN CHOICE, notes/assumptions/1.md): the first sweep report that waits for the Request Table is taken, else the first
internal event that is due, and where none is, one microsecond passes. -/
def step (s : State) : Host.Outcome State Fault Refusal :=
  match s.pending with
  | c :: rest => exec c { s with pending := rest }
  | [] =>
    if s.reportDue then .next s.takeFirstReport
    else
      match s.dueEvent with
      | some c => exec c s
      | none => .next s.passMicrosecond

/-- The command that a word spells, put at the front of the queue. No row of the table has bits, so no word spells one
and the state is unchanged (notes/assumptions/29.md). -/
def State.withFetchWord (s : State) (nbits w : Nat) : State :=
  match decodeTableWord nbits w with
  | some c => { s with pending := c :: s.pending }
  | none => s

end Sys2Proof.Machine
end

