-- ==== Sys2Proof/Safety.lean ====
section
/-! DEFINITION. The words in which statements about the model are made: where a frame stands, what an answered command
leaves, the ranges of the manual written as propositions, and the invariants that every step keeps. -/
namespace Sys2Proof.Machine

/-! ### Frames and answers -/

/-- A write frame that the port does not ignore is in progress at port `p`, and its next data word goes to address `a`
(R143, R149). -/
def State.AtWord (s : State) (p : Port) (a : BitVec 12) : Prop :=
  ∃ f, (s.port p).frame = some f ∧ f.write = true ∧ f.ignored = false ∧ f.address = a

/-- `s` with a data word of port `p` taken: the frame's address has advanced by one, and nothing else (R143). -/
def State.wordTaken (p : Port) (s : State) : State :=
  s.updPort p fun ps => { ps with frame := ps.frame.map fun f => { f with address := f.address + 1 } }

/-- `s` with a command of port `p` answered: the result word holds the answer `r`, the command's code `n` and the count
risen by one, the command word holds `w`, and the frame's address has advanced by one (R145). -/
def State.answered (p : Port) (w : Word) (n : Nat) (r : ResultCode) (s : State) : State :=
  s.updPort p fun ps =>
    { ps with commandWord := w
              result := { code := r, command := BitVec.ofNat 5 n, count := ps.result.count + 1 }
              frame := ps.frame.map fun f => { f with address := f.address + 1 } }

/-- `s` with the code `w` in the command word of port `p`, and nothing else changed: the state in which a command's effect
begins (R145). -/
def State.withCode (p : Port) (w : Word) (s : State) : State := s.updPort p fun ps => { ps with commandWord := w }

/-- The next word of port `p` is its command word, and the port is OPEN. -/
def State.OpenAtCommand (s : State) (p : Port) : Prop := s.AtWord p 0x01C ∧ (s.port p).mode = .opened

/-- Parameter word P0 of port `p` names slot `i`, which is one of the port's own (R6, R40, R76 check 2). -/
def State.NamesOwnSlot (s : State) (p : Port) (i : SlotId) : Prop :=
  (s.port p).params.p0.toNat = i.val ∧ slotOwner i = p

/-- Parameter word P0 of port `p` names timer `n` (R31), or line `n` (R38). -/
def State.NamesNumber (s : State) (p : Port) (n : Fin 4) : Prop := (s.port p).params.p0.toNat = n.val

/-- Parameter word P0 of port `p` names channel `ch` (R101, R102, R104-R106). -/
def State.NamesChannel (s : State) (p : Port) (ch : Channel) : Prop := (s.port p).params.p0.toNat = ch.toNat

/-- Port `p` holds the lease (R96). -/
def State.HoldsLease (s : State) (p : Port) : Prop := s.cal.lease.holder = some p

/-- The lease of `s` renewed: the remaining time is the stored duration × 100 ms (R98). -/
def State.renewed (s : State) : State :=
  { s with cal := { s.cal with lease := { s.cal.lease with remaining := s.cal.lease.duration * 100000 } } }

/-- The stamp counter `c` advanced `n` times: by one, and from 65535 to 1 (R42). -/
def stampAfter : Nat → Word → Word
  | 0, c => c
  | n + 1, c => stampAfter n (if c = 65535 then 1 else c + 1)

/-- `s` with the request of slot `i` made DUE with the stamp `stamp` as one occurrence: the stamp is the newest of the
stamp order and the stamp counter stands at it (R10, R42). -/
def State.madeDue (i : SlotId) (stamp : Word) (s : State) : State :=
  { s.updSlot i fun x => { x with state := .due, dueStamp := stamp } with
    arbiter := { s.arbiter with stampOrder := s.arbiter.stampOrder ++ [stamp], stampCounter := stamp } }

/-- `s` with a trigger counted as missed by the request of slot `i` (R25). -/
def State.triggerMissed (i : SlotId) (s : State) : State :=
  s.updSlot i fun x => { x with counters := { x.counters with triggersMissed := x.counters.triggersMissed + 1 } }

/-- `b` has the mode, the configuration, the filter list, the enables, the parameters, the result word, the frame, the reset
line and its meeting with a RESET_PORT of `a`. -/
def PortState.SettingsSame (a b : PortState) : Prop :=
  b.mode = a.mode ∧ b.config = a.config ∧ b.filters = a.filters ∧ b.unmatched = a.unmatched ∧ b.enables = a.enables ∧
    b.params = a.params ∧ b.commandWord = a.commandWord ∧ b.result = a.result ∧ b.frame = a.frame ∧
    b.lineLow = a.lineLow ∧ b.lineCut = a.lineCut

/-- The DUE request of slot `i` is preferred to that of slot `j` (R47): by effective priority, which is 0 at a passed-over
count of 8 (R48), then by the place of the stamp in the stamp order, then by port rotation from the port after the
last-granted one, then by slot number. -/
def State.Preferred (s : State) (i j : SlotId) : Prop :=
  let priority := fun k : SlotId => if (s.slot k).passedOver = 8 then 0 else (s.slot k).fields.priority.toNat
  let place := fun k : SlotId => s.arbiter.stampOrder.idxOf (s.slot k).dueStamp
  let turn := fun k : SlotId => (portCode (slotOwner k) + 2 - portCode s.arbiter.lastGranted) % 3
  priority i < priority j ∨ priority i = priority j ∧
    (place i < place j ∨ place i = place j ∧ (turn i < turn j ∨ turn i = turn j ∧ i.val < j.val))

/-- The request of slot `i` passes the room check (R49): it is not STALL, or its target queue has room for its scan. -/
def State.RoomFor (s : State) (i : SlotId) : Prop :=
  let f := (s.slot i).fields
  let fits := fun q => f.scanLength.toNat ≤ (s.port (slotOwner i)).room q
  f.policy.toNat = 1 → (f.target.toNat = 1 → fits .q0) ∧ (f.target.toNat = 2 → fits .q1)

/-- The selected record is one of port `p`, so that its CLOSE removes it (R68). -/
def State.SelectedOf (s : State) (p : Port) : Prop := ∃ r, s.seq.selected = some r ∧ slotOwner r.slot = p

/-- A CLOSE of port `p` starts no FLUSH: it removes no selected record, or a conversion is converting, or no other port's
sweep record waits in the buffer (R63, R68). -/
def State.ClosesWithoutFlush (s : State) (p : Port) : Prop :=
  ¬s.SelectedOf p ∨ s.seq.converting ≠ none ∨ ∀ r start, s.seq.buffer = some ⟨.sweep r, start⟩ → slotOwner r.slot = p

/-- `s` with a FLUSH started on the selected channel (R63): the buffer is read out, the FLUSH is converting from now with the
done timeout 20 µs ahead, and the report of the readout, if it makes one, is handed to the Request Table (SweepEnds). -/
def State.flushStarted (closing : Option Port) (s : State) : State :=
  let read := s.readout closing
  { read.1 with seq := { read.1.seq with
    converting := some ⟨.flush s.seq.selectedChannel, BitVec.ofNat 32 s.now⟩
    doneTimeout := some (s.now + 20) } }.handReport read.2

/-- The addresses whose words do something when they are written (R144, §11.2-§11.4): configuration, event flags and
enables, parameters and the command word, the writable words of slots, filter list, watched channels. -/
def takesWrites (a : BitVec 12) : Bool :=
  let n := a.toNat
  (0x001 ≤ n && n ≤ 0x008) || (0x010 ≤ n && n ≤ 0x013) || (0x018 ≤ n && n ≤ 0x01C) ||
    (0x100 ≤ n && n ≤ 0x1FF && n % 32 < 20) || (0x200 ≤ n && n ≤ 0x220) || (0x980 ≤ n && n ≤ 0x981)

/-- The bits of word `w` of a slot that belong to a field (§11.4). -/
def slotWordMask (w : Nat) : Word :=
  if w = 0 then 0x1FFF else if w = 1 then 0x7F1F else if w = 2 then 0xFFFF else if w = 3 then 0x31F7 else 0xFF3F

/-- The commands that need an OPEN port, with their codes: all but OPEN, RESET_PORT and POP_COMPLETION (R145, §11.3). -/
def commandsForOpenPorts (p : Port) : List (Nat × Instr) :=
  [(2, .closePort p), (4, .post p), (5, .cancel p), (6, .trigger p), (7, .ackQueue p), (8, .releaseSlots p),
   (10, .claimTimer p), (11, .setTimer p), (12, .startTimer p), (13, .stopTimer p), (14, .releaseTimer p),
   (15, .setLine p), (16, .lease p), (17, .endLease p), (18, .setProvisional p), (19, .dropProvisional p),
   (20, .commit p), (21, .burnFactory p), (22, .reload p), (23, .restartConverter p)]

/-! ### The manual's ranges -/

/-- The configuration items of one queue lie in their ranges (R130). -/
def QueueConfig.Valid (c : QueueConfig) : Prop :=
  c.size.toNat ≤ 64 ∧ c.mode.toNat ≤ 1 ∧ c.watermark.toNat ≤ c.size.toNat

/-- Every configuration item of a port lies in its range (R130). -/
def PortConfig.Valid (c : PortConfig) : Prop :=
  c.q0.Valid ∧ c.q1.Valid ∧ c.timeoutSource.toNat ≤ 2 ∧ 1 ≤ c.timeoutPreset.toNat

/-- A scan entry lies in its ranges (R7). -/
def ScanEntry.Valid (e : ScanEntry) : Prop :=
  e.channel.toNat ≤ 31 ∧ e.extension.toNat ≤ 7 ∧
    (e.count.toNat = 1 ∨ e.count.toNat = 2 ∨ e.count.toNat = 4 ∨ e.count.toNat = 8)

/-- The range check of POST passes (R7). -/
def SlotFields.Valid (f : SlotFields) : Prop :=
  f.priority.toNat ≤ 15 ∧ (1 ≤ f.scanLength.toNat ∧ f.scanLength.toNat ≤ 16) ∧
    (∀ e, e < f.scanLength.toNat → (f.entryAt e).Valid) ∧ f.source.toNat ≤ 9 ∧
    (f.target.toNat ≤ 2 ∨ f.target.toNat = 3 ∧ f.base.toNat ≤ 15) ∧ f.policy.toNat ≤ 1

/-- The trigger check of POST passes: a TIMER source, 1-4, names a timer that is not FREE (R6 check 5). -/
def State.SourceUsable (s : State) (f : SlotFields) : Prop :=
  ∀ n : Fin 4, f.source.toNat = n.val + 1 → (s.timer n).state ≠ .free

/-- The target check of POST passes (R8). -/
def PortState.TargetUsable (ps : PortState) (f : SlotFields) : Prop :=
  (f.target.toNat = 3 → f.base.toNat + f.scanLength.toNat - 1 ≤ 15) ∧ (f.target.toNat = 1 → ps.config.q0.size ≠ 0) ∧
    (f.target.toNat = 2 → ps.config.q1.size ≠ 0) ∧ (f.target.toNat = 0 → f.share = true)

/-- The policy check of POST passes: STALL wants a queue in BLOCKING mode whose size is at least the scan length (R8). -/
def PortState.PolicyUsable (ps : PortState) (f : SlotFields) : Prop :=
  f.policy.toNat = 1 →
    (f.target.toNat = 1 ∧ ps.config.q0.mode ≠ 1 ∧ f.scanLength.toNat ≤ ps.config.q0.size.toNat) ∨
    (f.target.toNat = 2 ∧ ps.config.q1.mode ≠ 1 ∧ f.scanLength.toNat ≤ ps.config.q1.size.toNat)

/-! ### Invariants -/

/-- The pool (R142): the sizes of the queues of all OPEN ports together never exceed 256, and a port is OPEN only with
a valid configuration (R130). -/
def State.PoolHolds (s : State) : Prop :=
  s.poolUse ≤ 256 ∧ ∀ p, (s.port p).mode = .opened → (s.port p).config.Valid

/-- The counts that the manual bounds: a completion queue holds at most 16 records (R22), a passed-over count is at most
8 (R4), an overwritten count at most 32768 (R131), a lease lasts at most 255 units and 25,500 ms (R96). -/
def State.CountsInRange (s : State) : Prop :=
  (∀ p, (s.port p).completions.length ≤ 16) ∧ (∀ p q, ((s.port p).ring q).overwritten ≤ 32768) ∧
    (∀ i, (s.slot i).passedOver ≤ 8) ∧ s.cal.lease.duration ≤ 255 ∧ s.cal.lease.remaining ≤ 25500000

/-- A CLOSED port holds no posting, no timer and no lease (R146), and a channel has a provisional part only while some
port holds the lease (R91, R96). -/
def State.ClosedOwnsNothing (s : State) : Prop :=
  (∀ i, (s.port (slotOwner i)).mode = .closed → (s.slot i).state = .idle) ∧
    (∀ n p, (s.timer n).state.owner = some p → (s.port p).mode = .opened) ∧
    (∀ p, s.cal.lease.holder = some p → (s.port p).mode = .opened) ∧
    (s.cal.lease.holder = none → ∀ ch, (s.calEntry ch).provisional = none)

/-- The queues of the OPEN ports (R131): fill plus reserved never exceeds the size, and a queue in OVERWRITE mode never
holds a reservation. It rests on every posting belonging to an OPEN port whose configuration its policy can use. -/
def State.RoomHolds (s : State) : Prop :=
  (∀ i, (s.slot i).state ≠ .idle → (s.port (slotOwner i)).mode = .opened ∧
    (s.port (slotOwner i)).PolicyUsable (s.slot i).fields) ∧
    ∀ p q, (s.port p).mode = .opened →
      ((s.port p).ring q).fill + ((s.port p).ring q).reserved ≤ ((s.port p).queueConfig q).size.toNat ∧
      (((s.port p).queueConfig q).mode = 1 → ((s.port p).ring q).reserved = 0)

/-- What the postings of port `p` that target queue `q` still hold of their reservations, together (R86, R134). -/
def State.heldIn (s : State) (p : Port) (q : QueueId) : Nat :=
  let code := match q with | .q0 => 1 | .q1 => 2
  ((portSlots p).map fun i => if (s.slot i).fields.target.toNat = code then (s.slot i).held else 0).sum

/-- The rings of the OPEN ports (R131, R134): fill is at most the size, the indexes lie below it, put stands fill places
after get, and reserved is what the postings that target the queue still hold. It rests on a CLOSED port holding no
posting, an IDLE slot holding nothing, and an OPEN port's configuration lying in its ranges, so that a size is at most 64. -/
def State.RingsHold (s : State) : Prop :=
  (∀ i, (s.port (slotOwner i)).mode = .closed → (s.slot i).state = .idle) ∧
    (∀ i, (s.slot i).state = .idle → (s.slot i).held = 0) ∧
    ∀ p, (s.port p).mode = .opened → (s.port p).config.Valid ∧ ∀ q,
      let r := (s.port p).ring q
      let size := ((s.port p).queueConfig q).size.toNat
      r.fill ≤ size ∧ (size = 0 → r.put = 0 ∧ r.get = 0) ∧
        (0 < size → r.get < size ∧ r.put = (r.get + r.fill) % size) ∧ r.reserved = s.heldIn p q

/-- The requests that name timer `n`: the slots that are not IDLE and whose trigger source is TIMER n (R30). -/
def State.namingTimer (s : State) (n : Fin 4) : List SlotId :=
  allSlots.filter fun i => (s.slot i).state != .idle && (s.slot i).fields.source.toNat == n.val + 1

/-- Timer references (R30): a timer's reference count is the number of requests that name it, a FREE timer has none and
its count is 0, and an orphaned one has some. It rests on a CLOSED port holding no posting. -/
def State.RefsExact (s : State) : Prop :=
  (∀ i, (s.port (slotOwner i)).mode = .closed → (s.slot i).state = .idle) ∧
    ∀ n, (s.timer n).refs = (s.namingTimer n).length ∧
      ((s.timer n).state = .free → (s.timer n).refs = 0 ∧ (s.timer n).count = 0) ∧
      ((s.timer n).state = .orphanedRunning ∨ (s.timer n).state = .orphanedStopped → 0 < (s.timer n).refs)

/-- The stamp order (R41, R42): it lists exactly the stamps that DUE and STALLED requests hold, each once, and never 0. It
rests on a CLOSED port holding no posting. -/
def State.StampsExact (s : State) : Prop :=
  (∀ i, (s.port (slotOwner i)).mode = .closed → (s.slot i).state = .idle) ∧
    s.arbiter.stampOrder.Nodup ∧ (0 : Word) ∉ s.arbiter.stampOrder ∧
    ∀ w, w ∈ s.arbiter.stampOrder ↔
      ∃ i, ((s.slot i).state = .due ∨ (s.slot i).state = .stalled) ∧ (s.slot i).dueStamp = w

/-- The conversion chain (R58, R63, R69, R71, R73): no converting record stands beside a buffer record; the done timeout
is set exactly while a conversion is converting; in READY some record is converting or in the buffer; an idle pipeline's
buffer record is STALE; a FAULTED link holds no record, and a RESTARTING one holds the DUMMY alone. -/
def State.ChainHolds (s : State) : Prop :=
  (s.seq.converting = none ∨ s.seq.buffer = none) ∧ (s.seq.doneTimeout.isSome = s.seq.converting.isSome) ∧
    (s.seq.link = .ready → s.seq.converting = none → s.seq.buffer ≠ none) ∧
    (s.seq.link = .ready → s.seq.selected = none → s.seq.converting = none →
      ∃ t, s.seq.buffer = some ⟨.stale, t⟩) ∧
    (s.seq.link = .faulted → s.seq.selected = none ∧ s.seq.converting = none ∧ s.seq.buffer = none ∧
      s.seq.active = none) ∧
    (s.seq.link = .restarting → s.seq.selected = none ∧ s.seq.buffer = none ∧ s.seq.active = none ∧
      ∃ c t, s.seq.converting = some ⟨.dummy c, t⟩)

end Sys2Proof.Machine
end

