-- ==== Sys2Proof/Certificates/Slice0/Obligations.lean ====
section
/-! DEFINITION. The statements about the model for the provers. A command of a master is answered with a command word `w`
left open, since what that word reads as is the model's deduction (notes/assumptions/12.md). -/
open Sys2Proof Sys2Proof.Machine

/-! ### Steps -/

/-- A step takes the command at the front of the queue. -/
def Obligations.StepTakesTheFrontCommand : Prop :=
  ∀ (c : Instr) (rest : List Instr) (s : State), step { s with pending := c :: rest } = exec c { s with pending := rest }

/-- Every command and every step answers a next state, and no command touches the waiting commands. -/
def Obligations.EveryCommandAnswersANextState : Prop :=
  (∀ (c : Instr) (s : State), ∃ t, exec c s = .next t ∧ t.pending = s.pending) ∧ ∀ s : State, ∃ t, step s = .next t

/-- An empty queue: the Request Table takes the first report of a completed sweep that waits for it; with none, and no internal event due,
a microsecond passes (that they do is the model's choice, notes/assumptions/1.md, 2.md, 4.md): counting timers' phases advance (R28), COUNTING timeout counters' units (R138), and a held
lease's remaining time counts down (R96). TIME_WRAP is the microsecond that returns the timestamp counter to 0. -/
def Obligations.TimePasses : Prop :=
  (∀ (i : SlotId) (rest : List SlotId) (s : State), s.pending = [] → s.inReset = false → s.seq.reports = i :: rest →
    step s = .next ({ s with seq := { s.seq with reports := rest } }.takeReport (some ⟨i, .completed⟩))) ∧
  (∀ s : State, s.pending = [] → s.seq.reports = [] → s.dueEvent = none → s.inReset = false →
    ∃ t, step s = .next t ∧ t.now = s.now + 1 ∧
      (∀ n, t.timer n = if (s.timer n).state.counting then { s.timer n with phase := (s.timer n).phase + 1 }
        else s.timer n) ∧
      (∀ p, t.port p = if (s.port p).timeout.state = .counting then
          { s.port p with timeout := { (s.port p).timeout with elapsed := (s.port p).timeout.elapsed + 1 } }
        else s.port p) ∧
      t.cal = (if s.cal.lease.holder = none then s.cal else
        { s.cal with lease := { s.cal.lease with remaining := s.cal.lease.remaining - 1 } }) ∧
      t.slots = s.slots ∧ t.lines = s.lines ∧ t.arbiter = s.arbiter ∧ t.seq = s.seq ∧ t.store = s.store ∧
      t.freeCount = s.freeCount ∧ t.pending = [] ∧ t.inReset = false) ∧
  (∀ s : State, s.inReset = false →
    (s.timestamp = 4294967295 → exec .timeWrap s = .next (((s.passMicrosecond.raise .a .timeWrap).raise .b
      .timeWrap).raise .c .timeWrap) ∧ s.passMicrosecond.timestamp = 0) ∧
    (s.timestamp ≠ 4294967295 → exec .timeWrap s = .next s))

/-! ### Reset -/

/-- The values after the device reset of a new part that the manual gives. The model's choices among them: the records of a
new part, UNWRITTEN, and with them the store's first reading of 5 ms (notes/assumptions/10.md), and the base 0 in the slots'
fields (33.md). -/
def Obligations.ResetValues : Prop :=
  (∀ p, (State.reset.port p).mode = .closed ∧ (State.reset.port p).config = ⟨⟨0, 0, 0⟩, ⟨0, 0, 0⟩, 0, 10000⟩ ∧
    (State.reset.port p).params = ⟨0, 0, 0, 0⟩ ∧ (State.reset.port p).result = ⟨.ok, 0, 0⟩ ∧
    (State.reset.port p).flags = 0 ∧ (State.reset.port p).enables = 0 ∧ (State.reset.port p).watched = 0 ∧
    (State.reset.port p).frame = none ∧ (State.reset.port p).unmatched = 0 ∧
    (∀ k, tget (State.reset.port p).filters k = ⟨false, 0, 0, 0, 0, 0, 0⟩) ∧
    (∀ q, ((State.reset.port p).ring q).fill = 0 ∧ ((State.reset.port p).ring q).reserved = 0 ∧
      ((State.reset.port p).ring q).put = 0 ∧ ((State.reset.port p).ring q).get = 0 ∧
      ((State.reset.port p).ring q).nextNumber = 0 ∧ ((State.reset.port p).ring q).overwritten = 0) ∧
    (∀ n, (tget (State.reset.port p).latest n).newData = false) ∧
    (State.reset.port p).timeout = ⟨10000, .held, 0⟩ ∧ (State.reset.port p).completions = []) ∧
  (∀ i, (State.reset.slot i).state = .idle ∧ (State.reset.slot i).counters = ⟨0, 0, 0, 0, 0⟩ ∧
    (State.reset.slot i).pendingTrigger = false ∧ (State.reset.slot i).passedOver = 0 ∧
    (State.reset.slot i).dueStamp = 0 ∧ (State.reset.slot i).fields =
      ⟨0, 15, 1, 0, false, false, false, 1, 0, 0, 0, Vector.replicate 16 ⟨0, 0, 1⟩⟩) ∧
  (∀ n, State.reset.timer n = ⟨.free, 1, 1000, 0, 0, 1, 1000, 0⟩) ∧
  (∀ n, (State.reset.line n).edge = .rising ∧ (State.reset.line n).debounce = .us4 ∧
    (State.reset.line n).candidate = none ∧ (State.reset.line n).level = (State.reset.line n).input) ∧
  State.reset.arbiter = ⟨[], 0, .c⟩ ∧
  State.reset.seq.link = .ready ∧ State.reset.seq.selectedChannel = none ∧ State.reset.seq.settledTime = 0 ∧
  State.reset.seq.active = none ∧ State.reset.seq.accumulator = none ∧ State.reset.seq.doneTimeout = none ∧
  State.reset.seq.selected = none ∧ State.reset.seq.converting = none ∧
  (∃ t, State.reset.seq.buffer = some ⟨.stale, t⟩) ∧
  (∀ ch, State.reset.calEntry ch = ⟨⟨0, 16384⟩, .loading, none, false⟩) ∧
  State.reset.cal.lease.holder = none ∧ State.reset.cal.lease.remaining = 0 ∧ State.reset.cal.commit = none ∧
  (∀ ch, State.reset.fieldRecord ch = .unwritten ∧ State.reset.factoryRecord ch = .unwritten) ∧
  State.reset.store.op = .loading 0 ∧ State.reset.store.opEnd = 5000 ∧ State.reset.timestamp = 0 ∧
  State.reset.pending = []

/-- The invariants hold after reset. -/
def Obligations.InvariantsHoldAtReset : Prop :=
  State.reset.PoolHolds ∧ State.reset.CountsInRange ∧ State.reset.ClosedOwnsNothing ∧ State.reset.RoomHolds ∧
    State.reset.RefsExact ∧ State.reset.StampsExact ∧ State.reset.ChainHolds ∧ State.reset.RingsHold

/-- DEVICE_RESET: every block takes its reset values, the records of the store and the pins stay, and nothing of a reset
that lasts already begins again. The model's choices: the values are taken when the reset begins and again when it ends
(notes/assumptions/19.md), a DEVICE_RESET within one and a DEVICE_RESET_END outside one change nothing (3.md), a frame in
progress ends (36.md), and what the manual gives no value has the model's: the command word (12.md), the
lease duration (11.md), the converter's code (17.md), the stale record's time (35.md), the base (33.md). -/
def Obligations.DeviceReset : Prop :=
  ∀ s : State,
    (s.inReset = true → exec .deviceReset s = .next s) ∧ (s.inReset = false → exec .deviceResetEnd s = .next s) ∧
    ∀ c begun, (c = .deviceReset ∧ s.inReset = false ∧ begun = true) ∨
        (c = .deviceResetEnd ∧ s.inReset = true ∧ begun = false) →
      ∃ t : State, exec c s = .next t ∧ t.inReset = begun ∧ t.now = 0 ∧
        (∀ p, t.port p = { State.reset.port p with lineLow := (s.port p).lineLow }) ∧
        t.slots = State.reset.slots ∧ t.timers = State.reset.timers ∧ t.arbiter = State.reset.arbiter ∧
        t.seq = State.reset.seq ∧ t.cal = State.reset.cal ∧
        (∀ n, t.line n = { State.reset.line n with level := (s.line n).input, input := (s.line n).input }) ∧
        t.store.fieldRecords = s.store.fieldRecords ∧ t.store.factoryRecords = s.store.factoryRecords ∧
        t.store.op = .loading 0 ∧
        t.store.opEnd = (match s.fieldRecord 0 with | .valid _ => 2500 | .unwritten => 5000 | .invalid => 5000) ∧
        t.freeCount = s.freeCount ∧ t.pending = s.pending

/-- A port reset of port `p`: what it leaves, on a CLOSED port nothing else and on an OPEN port everything a CLOSE leaves.
RESET_PORT does it in either port state. The port reset line, going low, does the same, ends the frame and clears the
result word; a RESET_PORT that meets it, its frame having ended in the same moment, is a second port reset; the port
ignores the frames that begin while the line is low. The model's choices and deductions: the kept command word and what it
reads as (notes/assumptions/12.md), a line that is low already does not go low again and the words of an ignored frame
change nothing (3.md), the moment of the meeting (38.md), an ignored frame stays ignored to its end (39.md). -/
def Obligations.PortReset : Prop :=
  (∀ (p : Port) (s : State), s.AtWord p 0x01C →
    ∃ w, exec (.resetPort p) s = .next (((s.withCode p w).portReset p).answered p w 3 .ok)) ∧
  (∀ (p : Port) (s : State), let t := s.portReset p
    t.port p = { State.reset.port p with
      commandWord := (s.port p).commandWord, result := (s.port p).result, frame := (s.port p).frame
      lineLow := (s.port p).lineLow } ∧
    (∀ i, slotOwner i = p → t.slot i = State.reset.slot i) ∧
    ((s.port p).mode = .closed → t = { s.updPort p (fun _ => t.port p) with slots := t.slots } ∧
      ∀ i, slotOwner i ≠ p → t.slot i = s.slot i) ∧
    ((s.port p).mode = .opened → let c := s.closeEffects p
      t = { c.updPort p (fun _ => t.port p) with slots := t.slots } ∧ ∀ i, slotOwner i ≠ p → t.slot i = c.slot i) ∧
    (∀ i, slotOwner i ≠ p → (t.slot i).fields = (s.slot i).fields) ∧
    (∀ q, q ≠ p → (t.port q).mode = (s.port q).mode ∧ (t.port q).config = (s.port q).config ∧
      (t.port q).filters = (s.port q).filters ∧ (t.port q).enables = (s.port q).enables) ∧
    t.lines = s.lines ∧ t.store = s.store ∧ t.arbiter.lastGranted = s.arbiter.lastGranted ∧ t.now = s.now ∧
    (∀ n, (t.timer n).prescale = (s.timer n).prescale ∧ (t.timer n).period = (s.timer n).period) ∧
    ∀ ch, (t.calEntry ch).committed = (s.calEntry ch).committed ∧
      (t.calEntry ch).commitPending = (s.calEntry ch).commitPending) ∧
  (∀ (p : Port) (s : State),
    ((s.port p).lineLow = true → exec (.portResetLine p) s = .next s) ∧
    ((s.port p).lineLow = false → ∃ m : Option Nat,
      (s.AtWord p 0x01C → m = some s.now) ∧ (¬s.AtWord p 0x01C → m = none) ∧
      exec (.portResetLine p) s = .next ((s.portReset p).updPort p fun ps =>
        { ps with lineLow := true, frame := none, result := ⟨.ok, 0, 0⟩, lineCut := m }) ∧
      ∃ t, exec (.portResetLine p) s = .next t ∧ t.port p = { State.reset.port p with
        commandWord := (s.port p).commandWord, lineLow := true, lineCut := m }) ∧
    ((s.port p).lineLow = true → (s.port p).frame = none → (s.port p).lineCut = some s.now →
      ∃ w, exec (.resetPort p) s = .next (((s.withCode p w).portReset p).updPort p fun ps =>
        { ps with result := ⟨.ok, 3, (s.port p).result.count + 1⟩ })) ∧
    ((s.port p).lineLow = true → ∀ a, s.readWord p a = 0) ∧
    exec (.portResetLineRelease p) s = .next (s.updPort p fun ps => { ps with lineLow := false })) ∧
  ∀ (p : Port) (f : Frame) (s : State), (s.port p).frame = some f → f.ignored = true →
    (∀ a, s.readWord p a = 0) ∧ (∀ v, ∀ c ∈ [Instr.writeWord p v, .slotFieldWrite p v, .configurationWrite p v,
      .eventFlagWrite p v, .eventEnableWrite p v, .watchedChannelWrite p v, .unknownCommand p v, .openPort p, .resetPort p,
      .popCompletion p, .timestampLowRead p, .resultWordRead p], exec c s = .next s) ∧
    (∀ i k, exec (.counterLowWordRead p i k) s = .next s) ∧ (∀ h, exec (.recordFirstWordRead p h) s = .next s) ∧
    ∀ n c, (n, c) ∈ commandsForOpenPorts p → exec c s = .next s

/-! ### Frames and words -/

/-- A frame begins with its header, where none is in progress and no device reset lasts, and ends with FRAME_END; the port
ignores it if its reset line is low at the header. WRITE_WORD stores a parameter word and ignores a read-only or unassigned
word; the address advances. The data output is driven in a frame, from the header's end on (the model's choice,
notes/assumptions/37.md), and not while a device reset lasts. That FRAME_END ends the meeting of a RESET_PORT with the line's
reset is the model's (38.md). -/
def Obligations.FramesAndParameterWords : Prop :=
  (∀ (p : Port) (h : Word) (s : State),
    (s.inReset = false → (s.port p).frame = none → exec (.frameHeader p h) s = .next (s.updPort p fun ps =>
      { ps with frame := some { write := h.getLsbD 15, address := h.extractLsb' 0 12, captures := []
                                ignored := (s.port p).lineLow } })) ∧
    (s.inReset = true → exec (.frameHeader p h) s = .next s) ∧
    exec (.frameEnd p) s = .next (s.updPort p fun ps => { ps with frame := none, lineCut := none }) ∧
    (s.misoDriven p = true ↔ s.inReset = false ∧ (s.port p).frame ≠ none)) ∧
  (∀ (p : Port) (v : Word) (a : BitVec 12) (s : State), s.AtWord p a →
    (a = 0x018 → exec (.writeWord p v) s = .next
      ((s.updPort p fun ps => { ps with params := { ps.params with p0 := v } }).wordTaken p)) ∧
    (a = 0x019 → exec (.writeWord p v) s = .next
      ((s.updPort p fun ps => { ps with params := { ps.params with p1 := v } }).wordTaken p)) ∧
    (a = 0x01A → exec (.writeWord p v) s = .next
      ((s.updPort p fun ps => { ps with params := { ps.params with p2 := v } }).wordTaken p)) ∧
    (a = 0x01B → exec (.writeWord p v) s = .next
      ((s.updPort p fun ps => { ps with params := { ps.params with p3 := v } }).wordTaken p)) ∧
    (takesWrites a = false → exec (.writeWord p v) s = .next (s.wordTaken p)))

/-- SLOT_FIELD_WRITE: word `w` of the port's slot `i` is stored if the slot is IDLE, else discarded. -/
def Obligations.SlotFieldWrites : Prop :=
  ∀ (p : Port) (k w : Nat) (i : SlotId) (v : Word) (s : State), k < 8 → w < 20 → i.val = 8 * portCode p + k →
    s.AtWord p (BitVec.ofNat 12 (0x100 + 32 * k + w)) →
    ((s.slot i).state = .idle → ∃ f : SlotFields, f.word w = v &&& slotWordMask w ∧
      (∀ u, u < 20 → u ≠ w → f.word u = (s.slot i).fields.word u) ∧
      exec (.slotFieldWrite p v) s = .next ((s.updSlot i fun x => { x with fields := f }).wordTaken p)) ∧
    ((s.slot i).state ≠ .idle → exec (.slotFieldWrite p v) s = .next ((s.raise p .writeDiscarded).wordTaken p))

/-- CONFIGURATION_WRITE: stored while the port is CLOSED, discarded while it is OPEN. That the timeout counter of a CLOSED
port keeps its value when its source or preset is written (0x007, 0x008) is the model's deduction,
notes/assumptions/30.md. -/
def Obligations.ConfigurationWrites : Prop :=
  ∀ (p : Port) (v : Word) (a : BitVec 12) (s : State), s.AtWord p a →
    ((s.port p).mode = .opened → (1 ≤ a.toNat ∧ a.toNat ≤ 8) ∨ (0x200 ≤ a.toNat ∧ a.toNat ≤ 0x220) →
      exec (.configurationWrite p v) s = .next ((s.raise p .writeDiscarded).wordTaken p)) ∧
    ((s.port p).mode = .closed →
      let stores := fun f : PortState → PortState => exec (.configurationWrite p v) s = .next ((s.updPort p f).wordTaken p)
      (a = 0x001 → stores fun ps => { ps with config := { ps.config with q0 := { ps.config.q0 with size := v } } }) ∧
      (a = 0x002 → stores fun ps => { ps with config := { ps.config with q0 := { ps.config.q0 with mode := v } } }) ∧
      (a = 0x003 → stores fun ps => { ps with config := { ps.config with q0 := { ps.config.q0 with watermark := v } } }) ∧
      (a = 0x004 → stores fun ps => { ps with config := { ps.config with q1 := { ps.config.q1 with size := v } } }) ∧
      (a = 0x005 → stores fun ps => { ps with config := { ps.config with q1 := { ps.config.q1 with mode := v } } }) ∧
      (a = 0x006 → stores fun ps => { ps with config := { ps.config with q1 := { ps.config.q1 with watermark := v } } }) ∧
      (a = 0x007 → stores fun ps => { ps with config := { ps.config with timeoutSource := v } }) ∧
      (a = 0x008 → stores fun ps => { ps with config := { ps.config with timeoutPreset := v } }) ∧
      (a = 0x220 → stores fun ps => { ps with unmatched := v.extractLsb' 0 2 }) ∧
      let first := fun f : FilterElement =>
        { f with action := v.extractLsb' 0 4, slot := v.extractLsb' 4 4, sources := v.extractLsb' 8 3,
                 kind := v.extractLsb' 12 2, enabled := v.getLsbD 15 }
      let second := fun f : FilterElement => { f with first := v.extractLsb' 0 8, second := v.extractLsb' 8 8 }
      ∀ k : Fin 16,
        (a.toNat = 0x200 + 2 * k.val →
          stores fun ps => { ps with filters := tset ps.filters k (first (tget ps.filters k)) }) ∧
        (a.toNat = 0x201 + 2 * k.val →
          stores fun ps => { ps with filters := tset ps.filters k (second (tget ps.filters k)) }))

/-- A raised event sets its flag and no other; EVENT_FLAG_WRITE clears each flag at whose place a 1 is written;
EVENT_ENABLE_WRITE stores the enables of its word; the interrupt line is low exactly while a flag and its enable are both
set and no device reset lasts; WATCHED_CHANNEL_WRITE removes each channel at whose place a 1 is written. -/
def Obligations.EventWords : Prop :=
  ((∀ (p : Port) (e : Event) (s : State), ∃ f : BitVec 22,
    (∀ b, b < 22 → f.getLsbD b = ((s.port p).flags.getLsbD b || decide (b = e.bit))) ∧
    s.raise p e = s.updPort p fun ps => { ps with flags := f }) ∧
  ∀ (p : Port) (v : Word) (s : State),
    (s.AtWord p 0x010 → ∃ f : BitVec 22,
      (∀ b, b < 22 → f.getLsbD b = ((s.port p).flags.getLsbD b && !(decide (b < 16) && v.getLsbD b))) ∧
      exec (.eventFlagWrite p v) s = .next ((s.updPort p fun ps => { ps with flags := f }).wordTaken p)) ∧
    (s.AtWord p 0x011 → ∃ f : BitVec 22,
      (∀ b, b < 22 → f.getLsbD b = ((s.port p).flags.getLsbD b && !(decide (16 ≤ b) && v.getLsbD (b - 16)))) ∧
      exec (.eventFlagWrite p v) s = .next ((s.updPort p fun ps => { ps with flags := f }).wordTaken p))) ∧
  ((∀ (p : Port) (v : Word) (s : State),
    (s.AtWord p 0x012 → ∃ f : BitVec 22,
      (∀ b, b < 22 → f.getLsbD b = if b < 16 then v.getLsbD b else (s.port p).enables.getLsbD b) ∧
      exec (.eventEnableWrite p v) s = .next ((s.updPort p fun ps => { ps with enables := f }).wordTaken p)) ∧
    (s.AtWord p 0x013 → ∃ f : BitVec 22,
      (∀ b, b < 22 → f.getLsbD b = if b < 16 then (s.port p).enables.getLsbD b else v.getLsbD (b - 16)) ∧
      exec (.eventEnableWrite p v) s = .next ((s.updPort p fun ps => { ps with enables := f }).wordTaken p))) ∧
  ∀ (p : Port) (s : State), s.irqHigh p = false ↔
    s.inReset = false ∧ ∃ e : Event, (s.port p).flag e = true ∧ (s.port p).enabled e = true) ∧
  (∀ (p : Port) (v : Word) (s : State),
    (s.AtWord p 0x980 → ∃ f : BitVec 32,
      (∀ b, b < 32 → f.getLsbD b = ((s.port p).watched.getLsbD b && !(decide (b < 16) && v.getLsbD b))) ∧
      exec (.watchedChannelWrite p v) s = .next ((s.updPort p fun ps => { ps with watched := f }).wordTaken p)) ∧
    (s.AtWord p 0x981 → ∃ f : BitVec 32,
      (∀ b, b < 32 → f.getLsbD b = ((s.port p).watched.getLsbD b && !(decide (16 ≤ b) && v.getLsbD (b - 16)))) ∧
      exec (.watchedChannelWrite p v) s = .next ((s.updPort p fun ps => { ps with watched := f }).wordTaken p)))

/-- A read that captures: whatever happens in the part while the frame lasts, the words captured are returned as they
stood at the read, and what the frame held captured for other addresses stays. The frame comes to the read's address by
reads of words that capture nothing, for which the read stands too (the model's choice, notes/assumptions/13.md). In a frame
that has captured the same words before, the later capture takes the place of the earlier (the model's deduction, 31.md). -/
def Obligations.CapturingReads : Prop :=
  ∀ (p : Port) (s : State),
    let capturing := fun a : BitVec 12 => let n := a.toNat
      n = 0x01D ∨ n = 0xA02 ∨ (0x100 ≤ n ∧ n ≤ 0x1FF ∧ 22 ≤ n % 32 ∧ n % 2 = 0) ∨
        (0x240 ≤ n ∧ n ≤ 0x2BF ∧ n % 8 = 0) ∨ (0x400 ≤ n ∧ n ≤ 0x7FF ∧ n % 8 = 0)
    let captures := fun (c : Instr) (a : BitVec 12) (rest : List (BitVec 12)) => ∀ f₀ : Frame,
      (s.port p).frame = some f₀ → f₀.write = false → f₀.ignored = false →
      (∀ k, k < (a - f₀.address).toNat → ¬capturing (f₀.address + BitVec.ofNat 12 k)) →
      ∃ f : Frame, f.write = false ∧ f.ignored = false ∧ f.address = a + 1 ∧
        exec c s = .next (s.updPort p fun ps => { ps with frame := some f }) ∧
        ∀ u : State, (u.port p).frame = some f → (u.port p).lineLow = false →
          (∀ b ∈ rest, u.readWord p b = s.windowWord p b) ∧
          ∀ b, b ∉ rest →
            (∀ x, f₀.captures.find? (fun x => x.address == b) = some x → u.readWord p b = x.word) ∧
            (f₀.captures.find? (fun x => x.address == b) = none → u.readWord p b = u.windowWord p b)
    captures (.timestampLowRead p) 0xA02 [0xA03] ∧ captures (.resultWordRead p) 0x01D [0x01E] ∧
    (∀ (i : Fin 8) (k : Fin 5),
      captures (.counterLowWordRead p i k) (BitVec.ofNat 12 (0x116 + 32 * i.val + 2 * k.val))
        [BitVec.ofNat 12 (0x117 + 32 * i.val + 2 * k.val)]) ∧
    (∀ i : Fin 64, captures (.recordFirstWordRead p (.position .q0 i)) (BitVec.ofNat 12 (0x400 + 8 * i.val))
      ([1, 2, 3, 4, 5, 6].map fun k => BitVec.ofNat 12 (0x400 + 8 * i.val + k))) ∧
    (∀ i : Fin 64, captures (.recordFirstWordRead p (.position .q1 i)) (BitVec.ofNat 12 (0x600 + 8 * i.val))
      ([1, 2, 3, 4, 5, 6].map fun k => BitVec.ofNat 12 (0x600 + 8 * i.val + k))) ∧
    (∀ n : Fin 16, captures (.recordFirstWordRead p (.latestSlot n)) (BitVec.ofNat 12 (0x240 + 8 * n.val))
      ([1, 2, 3, 4, 5].map fun k => BitVec.ofNat 12 (0x240 + 8 * n.val + k)))

/-- The words of a port's window that belong to the port itself (chapter 11): every field at its bits, and 0 at every
unassigned address. A read returns the word as it stands, but for a captured word. What the command word reads as is left
out here: it is the model's deduction (notes/assumptions/12.md). -/
def Obligations.WindowWords : Prop :=
  ∀ (p : Port) (s : State),
    let ps := s.port p
    let word := fun n : Nat => s.windowWord p (BitVec.ofNat 12 n)
    let num := fun n : Nat => (BitVec.ofNat 16 n : Word)
    let bit := fun b : Bool => if b then 1 else 0
    let low := fun d : DWord => (d.extractLsb' 0 16 : Word)
    let high := fun d : DWord => (d.extractLsb' 16 16 : Word)
    let code := fun q : Port => match q with | .a => 0 | .b => 1 | .c => 2
    (∀ a, (ps.frame = none ∨ ∃ f, ps.frame = some f ∧ f.ignored = false ∧ ∀ c ∈ f.captures, c.address ≠ a) →
      ps.lineLow = false → s.readWord p a = s.windowWord p a) ∧
    (word 0x000 = num (bit (ps.mode = .opened) + 256 * code p) ∧
      word 0x001 = ps.config.q0.size ∧ word 0x002 = ps.config.q0.mode ∧ word 0x003 = ps.config.q0.watermark ∧
      word 0x004 = ps.config.q1.size ∧ word 0x005 = ps.config.q1.mode ∧ word 0x006 = ps.config.q1.watermark ∧
      word 0x007 = ps.config.timeoutSource ∧ word 0x008 = ps.config.timeoutPreset ∧ word 0x009 = num ps.timeout.value ∧
      word 0x00A = num (match ps.timeout.state with | .held => 0 | .counting => 1 | .expired => 2)) ∧
    (∀ k e, [Event.q0Watermark, .q0Full, .q0Lost, .q1Watermark, .q1Full, .q1Lost, .queueTimeout, .slotNew, .urgent,
        .watched, .completion, .completionLost, .stalled, .triggerMissed, .converterFault, .converterReady][k]? = some e →
      (word 0x010).getLsbD k = ps.flag e ∧ (word 0x012).getLsbD k = ps.enabled e) ∧
    (∀ k e, [Event.leaseLost, .storeDone, .storeFailed, .loadDone, .timeWrap, .writeDiscarded][k]? = some e →
      (word 0x011).getLsbD k = ps.flag e ∧ (word 0x013).getLsbD k = ps.enabled e) ∧
    (∀ k, 6 ≤ k → (word 0x011).getLsbD k = false ∧ (word 0x013).getLsbD k = false) ∧
    (word 0x018 = ps.params.p0 ∧ word 0x019 = ps.params.p1 ∧ word 0x01A = ps.params.p2 ∧ word 0x01B = ps.params.p3 ∧
      word 0x01E = num ps.result.command.toNat) ∧
    (∀ k r, [ResultCode.ok, .accepted, .closed, .notIdle, .notActive, .badField, .badTarget, .badPolicy, .noRoom, .inUse,
        .notOwner, .busy, .locked, .noLease, .leaseHeld, .staleIndex, .badIndex, .empty, .already, .badTrigger][k]? = some r →
      ps.result.code = r → word 0x01D = num (k + 256 * ps.result.count.toNat)) ∧
    (ps.result.code = .unknownCommand → word 0x01D = num (31 + 256 * ps.result.count.toNat)) ∧
    (∀ (k : Nat) (i : SlotId), k < 8 → i.val = 8 * code p + k →
      let x := s.slot i
      let row := fun w : Nat => word (0x100 + 32 * k + w)
      row 0 = num (x.fields.tag.toNat + 256 * x.fields.priority.toNat) ∧
      row 1 = num (x.fields.scanLength.toNat + 256 * x.fields.source.toNat + 4096 * bit x.fields.strict +
        8192 * bit x.fields.share + 16384 * bit x.fields.raw) ∧
      row 2 = x.fields.sweepCount ∧
      row 3 = num (x.fields.target.toNat + 16 * x.fields.base.toNat + 4096 * x.fields.policy.toNat) ∧
      (∀ e : Fin 16, let y := tget x.fields.entries e
        row (4 + e.val) = num (y.channel.toNat + 256 * y.extension.toNat + 4096 * y.count.toNat)) ∧
      row 20 = num ((match x.state with
        | .idle => 0 | .armed => 1 | .due => 2 | .stalled => 3 | .running => 4 | .draining _ => 5) +
          16 * bit x.pendingTrigger + 256 * x.passedOver) ∧
      row 21 = x.dueStamp ∧
      ∀ w d, (w, d) ∈ [(22, x.counters.sweepsDone), (24, x.counters.entriesProduced), (26, x.counters.samplesDelivered),
        (28, x.counters.samplesLost), (30, x.counters.triggersMissed)] → row w = low d ∧ row (w + 1) = high d) ∧
    (∀ k : Fin 16, let f := tget ps.filters k
      word (0x200 + 2 * k.val) = num (f.action.toNat + 16 * f.slot.toNat + 256 * f.sources.toNat + 4096 * f.kind.toNat +
        32768 * bit f.enabled) ∧
      word (0x201 + 2 * k.val) = num (f.first.toNat + 256 * f.second.toNat)) ∧
    word 0x220 = num ps.unmatched.toNat ∧
    (let sample := fun (r : SampleRecord) (row : Nat → Word) =>
        row 0 = r.value ∧
        row 1 = num (r.channel.toNat + 32 * r.entry.toNat + 512 * r.slot.val + 16384 * code r.sourcePort) ∧
        row 2 = num (r.tag.toNat + 256 * bit r.overRange + 512 * bit r.clamp + 1024 * bit r.shared + 2048 * bit r.urgent +
          4096 * (match r.calSource with
            | .raw => 0 | .default => 1 | .loading => 2 | .factory => 3 | .field => 4 | .provisional => 5)) ∧
        row 3 = r.sweepIndex ∧ row 4 = low r.timestamp ∧ row 5 = high r.timestamp;
      (∀ n : Fin 16, sample (tget ps.latest n).record (fun w => word (0x240 + 8 * n.val + w)) ∧
        word (0x246 + 8 * n.val) = 0 ∧ word (0x247 + 8 * n.val) = 0 ∧
        (word 0x2C0).getLsbD n.val = (tget ps.latest n).newData) ∧
      ∀ q state first, (q, state, first) ∈ [(QueueId.q0, 0x300, 0x400), (.q1, 0x308, 0x600)] →
        let r := ps.ring q
        (word state = num r.put ∧ word (state + 1) = num r.get ∧ word (state + 2) = num r.fill ∧
          word (state + 3) = num r.reserved ∧ word (state + 4) = r.nextNumber ∧ word (state + 5) = num r.overwritten) ∧
        ∀ i : Fin 64, let row := fun w : Nat => word (first + 8 * i.val + w)
          (i.val < (ps.queueConfig q).size.toNat → row 0 = (tget r.positions i).number ∧
            sample (tget r.positions i).record (fun w => row (1 + w)) ∧ row 7 = 0) ∧
          ((ps.queueConfig q).size.toNat ≤ i.val → ∀ w, w < 8 → row w = 0)) ∧
    word 0x800 = num ps.completions.length ∧
    (∀ k : Fin 16, let row := fun w : Nat => word (0x810 + 16 * k.val + w)
      (ps.completions.length ≤ k.val → ∀ w, w < 16 → row w = 0) ∧
      ∀ r, ps.completions[k.val]? = some r →
        row 0 = num (r.slot.val + 256 * (match r.outcome with
          | .completed => 0 | .completedDespiteCancel => 1 | .cancelled => 2 | .overrun => 3 | .converterFault => 4)) ∧
        row 1 = num r.tag.toNat ∧ (∀ w d, (w, d) ∈ [(2, r.counters.sweepsDone), (4, r.counters.entriesProduced),
          (6, r.counters.samplesDelivered), (8, r.counters.samplesLost), (10, r.counters.triggersMissed),
          (12, r.endTime)] → row w = low d ∧ row (w + 1) = high d) ∧ row 14 = 0 ∧ row 15 = 0) ∧
    (∀ n, n < 16 → (word 0x980).getLsbD n = ps.watched.getLsbD n ∧ (word 0x981).getLsbD n = ps.watched.getLsbD (16 + n)) ∧
    ∀ a : BitVec 12, (∀ first last, (first, last) ∈ [(0x000, 0x00A), (0x010, 0x013), (0x018, 0x01E), (0x100, 0x1FF),
        (0x200, 0x220), (0x240, 0x2C0), (0x300, 0x305), (0x308, 0x30D), (0x400, 0x7FF), (0x800, 0x800), (0x810, 0x90F),
        (0x980, 0x981), (0xA00, 0xA33), (0xB00, 0xBFF)] → ¬(first ≤ a.toNat ∧ a.toNat ≤ last)) → s.windowWord p a = 0

/-- The words of the shared view, which every port's window shows alike (§11.9): every field at its bits, and 0 at its
unassigned addresses. The due count is the number of DUE requests (R41), the lease's remaining time is in milliseconds rounded
up (R96), and the store's channel is 0 in IDLE (R110). -/
def Obligations.SharedViewWords : Prop :=
  ∀ (p : Port) (s : State),
    let word := fun n : Nat => s.windowWord p (BitVec.ofNat 12 n)
    let num := fun n : Nat => (BitVec.ofNat 16 n : Word)
    let bit := fun b : Bool => if b then 1 else 0
    let code := fun q : Option Port => match q with | some .a => 0 | some .b => 1 | some .c => 2 | none => 3
    let opened := fun q : Port => decide ((s.port q).mode = .opened)
    let share := fun q : Port =>
      if opened q then (s.port q).config.q0.size.toNat + (s.port q).config.q1.size.toNat else 0
    (word 0xA00 = num (match s.seq.link with | .ready => 0 | .faulted => 1 | .restarting => 2) ∧
      word 0xA01 = num ((allSlots.filter fun i => (s.slot i).state == .due).length + 256 * code s.arbiter.lastGranted) ∧
      word 0xA02 = num s.now ∧ word 0xA03 = num (s.now / 65536) ∧
      word 0xA04 = num (bit (opened .a) + 2 * bit (opened .b) + 4 * bit (opened .c)) ∧
      word 0xA05 = num (share .a + share .b + share .c) ∧
      word 0xA06 = num (code s.cal.lease.holder) ∧ word 0xA07 = num ((s.cal.lease.remaining + 999) / 1000) ∧
      word 0xA08 = num (match s.store.op with
        | .loading ch => 256 * ch.toNat
        | .idle => 1
        | .reading ch => 2 + 256 * ch.toNat
        | .writingField ch _ => 3 + 256 * ch.toNat
        | .writingFactory ch _ => 4 + 256 * ch.toNat) ∧
      ∀ n, 0xA09 ≤ n → n ≤ 0xA0F → word n = 0) ∧
    (∀ n : Fin 4, let x := s.timer n
      let row := fun w : Nat => word (0xA10 + 8 * n.val + w)
      row 0 = num (match x.state with
        | .free => 0 + 256 * code none
        | .held q => 1 + 256 * code (some q)
        | .running q => 2 + 256 * code (some q)
        | .orphanedRunning => 3 + 256 * code none
        | .orphanedStopped => 4 + 256 * code none) ∧
      row 1 = num x.prescale ∧ row 2 = num x.period ∧ row 3 = num x.count ∧ row 4 = num x.refs ∧
      row 5 = 0 ∧ row 6 = 0 ∧ row 7 = 0) ∧
    (∀ n : Fin 4, let l := s.line n
      word (0xA30 + n.val) = num ((match l.edge with | .rising => 0 | .falling => 1 | .both => 2) +
        16 * (match l.debounce with | .none => 0 | .us4 => 1 | .us64 => 2 | .ms1 => 3) + 256 * bit l.level +
        512 * bit (decide (l.candidate ≠ none)))) ∧
    ∀ ch : Channel, let e := s.calEntry ch
      let row := fun w : Nat => word (0xB00 + 8 * ch.toNat + w)
      let status := fun r : StoreRecord => match r with | .unwritten => 0 | .valid _ => 1 | .invalid => 2
      row 0 = e.committed.offset ∧ row 1 = e.committed.gain ∧
      row 2 = num ((match e.source with | .loading => 0 | .default => 1 | .factory => 2 | .field => 3) +
        16 * bit (decide (e.provisional ≠ none)) + 32 * bit e.commitPending + 256 * status (s.fieldRecord ch) +
        1024 * status (s.factoryRecord ch)) ∧
      (e.provisional = none → row 3 = 0 ∧ row 4 = 0) ∧ (∀ c, e.provisional = some c → row 3 = c.offset ∧ row 4 = c.gain) ∧
      row 5 = 0 ∧ row 6 = 0 ∧ row 7 = 0

/-! ### Commands of a port -/

/-- A code that names no command is answered UNKNOWN_COMMAND with code 0 recorded, in either port state; on a CLOSED port
every command but OPEN, RESET_PORT and POP_COMPLETION is answered CLOSED and does nothing else. -/
def Obligations.CommandsTurnedAway : Prop :=
  (∀ (p : Port) (code : Word) (s : State), s.AtWord p 0x01C → code.toNat = 0 ∨ 23 < code.toNat →
    ∃ w, exec (.unknownCommand p code) s = .next (s.answered p w 0 .unknownCommand)) ∧
  (∀ (p : Port) (n : Nat) (c : Instr) (s : State), (n, c) ∈ commandsForOpenPorts p → s.AtWord p 0x01C →
    (s.port p).mode = .closed → ∃ w, exec c s = .next (s.answered p w n .closed))

/-- OPEN: its checks in their order, and its effect. -/
def Obligations.OpenPort : Prop :=
  ∀ (p : Port) (s : State), s.AtWord p 0x01C →
    let share := fun q => (s.port q).config.q0.size.toNat + (s.port q).config.q1.size.toNat
    let used := ([Port.a, Port.b, Port.c].map fun q => if (s.port q).mode = .opened then share q else 0).sum
    ((s.port p).mode = .opened → ∃ w, exec (.openPort p) s = .next (s.answered p w 1 .already)) ∧
    ((s.port p).mode = .closed → ¬(s.port p).config.Valid →
      ∃ w, exec (.openPort p) s = .next (s.answered p w 1 .badField)) ∧
    ((s.port p).mode = .closed → (s.port p).config.Valid → 256 < used + share p →
      ∃ w, exec (.openPort p) s = .next (s.answered p w 1 .noRoom)) ∧
    ((s.port p).mode = .closed → (s.port p).config.Valid → used + share p ≤ 256 →
      ∃ w, exec (.openPort p) s = .next ((s.updPort p fun ps =>
        { ps with mode := .opened, ring0 := Ring.empty, ring1 := Ring.empty
                  latest := Vector.replicate 16 LatestSlot.empty
                  timeout := ⟨ps.config.timeoutPreset.toNat, .held, 0⟩, completions := [] }).answered p w 1 .ok))

/-- CLOSE of an OPEN port: the reports of its completed sweeps that still wait are taken first, which gives `u` (R88). The port
is CLOSED and emptied and keeps what R148 keeps, its timeout counter is preset where a queue is its source, each of its
postings has ended without a record, the lease ends if the port holds it and only then, and the rest of the part keeps its
settings. Without a FLUSH, the other ports and slots are unchanged; with one, they are as the readout of the other port's
record that waits in the buffer leaves them, with the posting of a cut sweep ended (R81); the report of a sweep that it
completes waits for the Request Table (CloseRetagsRecords). The closing port itself is offered the sample or is not (the model leaves it open,
notes/assumptions/5.md), and if it is, it evaluates it with the reservations of its postings returned (the model's choice,
28.md). -/
def Obligations.ClosePort : Prop :=
  (∀ (p : Port) (s : State), s.OpenAtCommand p →
    ∃ w, exec (.closePort p) s = .next (((s.withCode p w).closeEffects p).answered p w 2 .ok)) ∧
  ∀ (p : Port) (s : State), (s.port p).mode = .opened → let t := s.closeEffects p
    let u := s.takeReports fun i => slotOwner i == p
    let returned := fun code : Nat => ((portSlots p).map fun i =>
      if (u.slot i).state ≠ .idle ∧ (u.slot i).fields.target.toNat = code then (u.slot i).held else 0).sum
    let waiting := { u with seq := { u.seq with accumulator := u.seq.accumulator.filter fun a => slotOwner a.slot != p } }
    let flushed := (waiting.readout none).1.handReport (waiting.readout none).2
    let offered := waiting.updPort p fun ps =>
      { ps with ring0 := { ps.ring0 with reserved := ps.ring0.reserved - returned 1 }
                ring1 := { ps.ring1 with reserved := ps.ring1.reserved - returned 2 } }
    let source := (s.port p).config.timeoutSource.toNat
    (t.port p).mode = .closed ∧ (t.port p).ring0 = Ring.empty ∧ (t.port p).ring1 = Ring.empty ∧
    (∀ n, tget (t.port p).latest n = LatestSlot.empty) ∧ (t.port p).completions = [] ∧
    (t.port p).timeout = (if source = 1 ∨ source = 2 then ⟨(s.port p).config.timeoutPreset.toNat, .held, 0⟩
      else (s.port p).timeout) ∧
    (t.port p).config = (s.port p).config ∧ (t.port p).filters = (s.port p).filters ∧
    (t.port p).unmatched = (s.port p).unmatched ∧ (t.port p).enables = (s.port p).enables ∧
    (∀ i, slotOwner i = p → (t.slot i).state = .idle ∧ (t.slot i).fields = (s.slot i).fields ∧
      (t.slot i).counters = (u.slot i).counters ∧ (t.slot i).dueStamp = (u.slot i).dueStamp ∧
      (t.slot i).passedOver = (u.slot i).passedOver) ∧
    (s.ClosesWithoutFlush p → (t.port p).flags = (u.port p).flags ∧ (t.port p).watched = (s.port p).watched ∧
      (∀ i, slotOwner i ≠ p → t.slot i = s.slot i) ∧ ∀ q, q ≠ p → t.port q = s.port q) ∧
    (¬s.ClosesWithoutFlush p →
      (∀ i, slotOwner i ≠ p → t.slot i = flushed.slot i) ∧
      (∀ q, q ≠ p → t.port q = flushed.port q) ∧
      ((t.port p).flags = (u.port p).flags ∧ (t.port p).watched = (s.port p).watched ∨
        (t.port p).flags = ((offered.readout none).1.port p).flags ∧
        (t.port p).watched = ((offered.readout none).1.port p).watched)) ∧
    (s.HoldsLease p → t.cal.lease.holder = none ∧ ∀ ch, t.calEntry ch = { s.calEntry ch with provisional := none }) ∧
    (¬s.HoldsLease p → t.cal = s.cal) ∧
    t.lines = s.lines ∧ t.store = s.store ∧ t.cal.commit = s.cal.commit ∧ t.now = s.now ∧
    t.arbiter.lastGranted = s.arbiter.lastGranted ∧ t.arbiter.stampCounter = u.arbiter.stampCounter ∧
    t.arbiter.stampOrder.Sublist u.arbiter.stampOrder ∧
    ∀ w ∈ u.arbiter.stampOrder,
      let holds := fun j => ((u.slot j).state = .due ∨ (u.slot j).state = .stalled) ∧ (u.slot j).dueStamp = w
      ((∃ j, slotOwner j ≠ p ∧ holds j) → w ∈ t.arbiter.stampOrder) ∧
      ((∃ j, holds j) → (∀ j, holds j → slotOwner j = p) → w ∉ t.arbiter.stampOrder)

/-- A CLOSE releases every timer of the port and drops the references of its postings. A FLUSH that it starts may end another
port's cut sweep (R81), whose reference is then dropped too: the references left are those of the requests that are not IDLE
after it. -/
def Obligations.CloseReleasesTimers : Prop :=
  (∀ (p : Port) (s : State), s.OpenAtCommand p →
    ∃ w, exec (.closePort p) s = .next (((s.withCode p w).closeEffects p).answered p w 2 .ok)) ∧
  ∀ (p : Port) (s : State), (s.port p).mode = .opened → s.RefsExact → let t := s.closeEffects p
    (∀ n, (t.timer n).state.owner ≠ some p) ∧
    (∀ n,
      let others := allSlots.filter fun i =>
        (t.slot i).state != .idle && (s.slot i).fields.source.toNat == n.val + 1 && slotOwner i != p
      (t.timer n).refs = others.length ∧
      ((s.timer n).state.owner = some p → others = [] → (t.timer n).state = .free ∧ (t.timer n).count = 0) ∧
      ((s.timer n).state = .running p → others ≠ [] →
        (t.timer n).state = .orphanedRunning ∧ (t.timer n).count = (s.timer n).count) ∧
      ((s.timer n).state = .held p → others ≠ [] →
        (t.timer n).state = .orphanedStopped ∧ (t.timer n).count = (s.timer n).count) ∧
      ((∃ q, q ≠ p ∧ (s.timer n).state.owner = some q) → (t.timer n).state = (s.timer n).state) ∧
      ((s.timer n).state = .orphanedRunning ∨ (s.timer n).state = .orphanedStopped →
        (t.timer n).state = if others = [] then .free else (s.timer n).state))

/-- What a CLOSE does to the conversions in flight: the port's selected record is removed, its started records are STALE,
its accumulator entry and its active sweep are gone; the others' records stay. A removal that leaves nothing converting
makes a FLUSH or DUMMY buffer record STALE; or, with another port's sweep record in the buffer, it starts a FLUSH whose
readout takes that record; the report of a sweep that it completes waits for the Request Table (the model's choice,
notes/assumptions/34.md), and that of a cut sweep is taken (R81). Reports that wait about the port's own sweeps are taken
first, which gives `u` (R88), and cuts handed over for its postings are dropped (18.md). -/
def Obligations.CloseRetagsRecords : Prop :=
  (∀ (p : Port) (s : State), s.OpenAtCommand p →
    ∃ w, exec (.closePort p) s = .next (((s.withCode p w).closeEffects p).answered p w 2 .ok)) ∧
  ∀ (p : Port) (s : State), (s.port p).mode = .opened → let t := s.closeEffects p
    let u := s.takeReports fun i => slotOwner i == p
    let accumulator := s.seq.accumulator.filter fun a => slotOwner a.slot != p
    let stays := fun i => slotOwner i != p || (u.slot i).state == .idle
    (∀ r, s.seq.selected = some r → t.seq.selected = if slotOwner r.slot = p then none else some r) ∧
    (s.seq.selected = none → t.seq.selected = none) ∧
    (∀ a, s.seq.active = some a → t.seq.active = if slotOwner a.slot = p then none else some a) ∧
    (s.seq.active = none → t.seq.active = none) ∧
    t.seq.link = s.seq.link ∧ t.seq.selectedChannel = s.seq.selectedChannel ∧ t.seq.settledTime = s.seq.settledTime ∧
    t.seq.converterCode = s.seq.converterCode ∧
    (s.ClosesWithoutFlush p →
      t.seq.accumulator = accumulator ∧ t.seq.doneTimeout = s.seq.doneTimeout ∧ t.seq.cuts = u.seq.cuts.filter stays ∧
      t.seq.reports = s.seq.reports.filter (fun i => slotOwner i != p) ∧
      (∀ r start, s.seq.converting = some ⟨.sweep r, start⟩ →
        t.seq.converting = some ⟨if slotOwner r.slot = p then .stale else .sweep r, start⟩) ∧
      (∀ b, s.seq.converting = some b → (∀ r, b.tag ≠ .sweep r) → t.seq.converting = some b) ∧
      (s.seq.converting = none → t.seq.converting = none) ∧
      (∀ r start, s.seq.buffer = some ⟨.sweep r, start⟩ →
        t.seq.buffer = some ⟨if slotOwner r.slot = p then .stale else .sweep r, start⟩) ∧
      (∀ b, s.seq.buffer = some b → (∀ r, b.tag ≠ .sweep r) →
        (s.SelectedOf p → s.seq.converting = none → t.seq.buffer = some ⟨.stale, b.startTime⟩) ∧
        (¬s.SelectedOf p ∨ s.seq.converting ≠ none → t.seq.buffer = some b)) ∧
      (s.seq.buffer = none → t.seq.buffer = none)) ∧
    (¬s.ClosesWithoutFlush p →
      let waiting := { u with seq := { u.seq with accumulator := accumulator } }
      let flushed := (waiting.readout none).1.handReport (waiting.readout none).2
      t.seq.converting = some ⟨.flush s.seq.selectedChannel, BitVec.ofNat 32 s.now⟩ ∧
      t.seq.doneTimeout = some (s.now + 20) ∧ t.seq.buffer = none ∧
      t.seq.accumulator = flushed.seq.accumulator ∧ t.seq.cuts = flushed.seq.cuts.filter stays ∧
      t.seq.reports = flushed.seq.reports ∧
      ∀ r start, s.seq.buffer = some ⟨.sweep r, start⟩ → (t.slot r.slot).counters.entriesProduced =
        (flushed.slot r.slot).counters.entriesProduced)

/-! ### Requests -/

/-- POST: the checks after the port's own, in their order; a refused POST changes nothing. One that passes every check: the
counters are 0, and the request is DUE with a new stamp if its source is IMMEDIATE, else ARMED, with a timer's reference
count risen if the source is that timer. A new stamp is the first value after the stamp counter, going from 65535 to 1,
that is not in the stamp order. -/
def Obligations.PostChecksAndEffect : Prop :=
  (∀ (p : Port) (s : State), s.OpenAtCommand p →
    ((∀ i, ¬s.NamesOwnSlot p i) → ∃ w, exec (.post p) s = .next (s.answered p w 4 .notOwner)) ∧
    ∀ i, s.NamesOwnSlot p i →
      let x := s.slot i
      (x.state ≠ .idle → ∃ w, exec (.post p) s = .next (s.answered p w 4 .notIdle)) ∧
      (x.state = .idle → ¬x.fields.Valid → ∃ w, exec (.post p) s = .next (s.answered p w 4 .badField)) ∧
      (x.state = .idle → x.fields.Valid → ¬s.SourceUsable x.fields →
        ∃ w, exec (.post p) s = .next (s.answered p w 4 .badTrigger)) ∧
      (x.state = .idle → x.fields.Valid → s.SourceUsable x.fields → ¬(s.port p).TargetUsable x.fields →
        ∃ w, exec (.post p) s = .next (s.answered p w 4 .badTarget)) ∧
      (x.state = .idle → x.fields.Valid → s.SourceUsable x.fields → (s.port p).TargetUsable x.fields →
        ¬(s.port p).PolicyUsable x.fields → ∃ w, exec (.post p) s = .next (s.answered p w 4 .badPolicy))) ∧
  (∀ (p : Port) (i : SlotId) (s : State), s.OpenAtCommand p → s.NamesOwnSlot p i → (s.slot i).state = .idle →
    (s.slot i).fields.Valid → s.SourceUsable (s.slot i).fields → (s.port p).TargetUsable (s.slot i).fields →
    (s.port p).PolicyUsable (s.slot i).fields →
    let source := (s.slot i).fields.source.toNat
    let posted := s.updSlot i fun x =>
      { x with state := .armed, counters := ⟨0, 0, 0, 0, 0⟩, pendingTrigger := false, passedOver := 0 }
    (source = 0 → ∃ w, exec (.post p) s = .next ((posted.madeDue i s.arbiter.newStamp).answered p w 4 .ok)) ∧
    (∀ n : Fin 4, source = n.val + 1 → ∃ w, exec (.post p) s = .next
      ((posted.updTimer n fun t => { t with refs := t.refs + 1 }).answered p w 4 .ok)) ∧
    (5 ≤ source → ∃ w, exec (.post p) s = .next (posted.answered p w 4 .ok))) ∧
  ∀ a : Arbiter, a.stampOrder.length ≤ 24 →
    ∃ k, k < 25 ∧ a.newStamp = stampAfter (k + 1) a.stampCounter ∧ a.newStamp ∉ a.stampOrder ∧ a.newStamp ≠ 0 ∧
      ∀ j, j < k → stampAfter (j + 1) a.stampCounter ∈ a.stampOrder

/-- The ending of a posting: the record or its loss, IDLE, the timer reference, the stamp order, and the return of what
is left of the reservation with the STALLED requests that then fit. That a cut of its sweep that waits is dropped with it is
the model's choice, notes/assumptions/18.md. -/
def Obligations.PostingEnds : Prop :=
  ∀ (i : SlotId) (o : EndOutcome) (s : State), (s.slot i).state ≠ .idle →
    let x := s.slot i
    let p := slotOwner i
    let t := s.endPosting i (some o)
    let record : CompletionRecord := ⟨i, x.fields.tag, o, x.counters, BitVec.ofNat 32 s.now⟩
    let written := if (s.port p).completions.length < 16 then
        { (s.port p).raise .completion with completions := (s.port p).completions ++ [record] }
      else (s.port p).raise .completionLost
    let fits := fun (j : SlotId) (q : QueueId) (code : Nat) => (s.slot j).state = .stalled ∧ slotOwner j = p ∧
      x.fields.target.toNat = code ∧ (s.slot j).fields.target.toNat = code ∧ 0 < x.held ∧
      (s.slot j).fields.scanLength.toNat ≤ (t.port p).room q
    t.slot i = { x with state := .idle, pendingTrigger := false, held := 0, truncatedAt := none } ∧
    (∀ j, j ≠ i → (fits j .q0 1 ∨ fits j .q1 2 → t.slot j = { s.slot j with state := .due }) ∧
      (¬fits j .q0 1 → ¬fits j .q1 2 → t.slot j = s.slot j)) ∧
    t.port p = (if x.fields.target.toNat = 1 then
        { written with ring0 := { written.ring0 with reserved := written.ring0.reserved - x.held } }
      else if x.fields.target.toNat = 2 then
        { written with ring1 := { written.ring1 with reserved := written.ring1.reserved - x.held } }
      else written) ∧
    (∀ q, q ≠ p → t.port q = s.port q) ∧
    (∀ n : Fin 4, x.fields.source.toNat ≠ n.val + 1 → t.timer n = s.timer n) ∧
    (∀ n : Fin 4, x.fields.source.toNat = n.val + 1 → t.timer n =
      if (s.timer n).refs - 1 = 0 ∧ ((s.timer n).state = .orphanedRunning ∨ (s.timer n).state = .orphanedStopped) then
        { s.timer n with refs := 0, state := .free, count := 0 }
      else { s.timer n with refs := (s.timer n).refs - 1 }) ∧
    (t.arbiter.stampOrder.Sublist s.arbiter.stampOrder ∧
      ∀ w, w ∈ t.arbiter.stampOrder ↔ w ∈ s.arbiter.stampOrder ∧
        ∃ j, ((t.slot j).state = .due ∨ (t.slot j).state = .stalled) ∧ (t.slot j).dueStamp = w) ∧
    t.arbiter.stampCounter = s.arbiter.stampCounter ∧ t.arbiter.lastGranted = s.arbiter.lastGranted ∧
    t.lines = s.lines ∧ t.cal = s.cal ∧ t.store = s.store ∧ t.now = s.now ∧
    t.seq = { s.seq with cuts := s.seq.cuts.filter (· != i) }

/-- The Request Table takes a report of the sequencer: a sweep completes (R13, R14), or is cut. A cut sweep's report is taken in
the taking that makes it (R81). The model's choice (notes/assumptions/4.md): a completed sweep's report waits behind those that
wait already, and those of them that are taken are taken in the order in which they were made, while the others go on
waiting. -/
def Obligations.SweepEnds : Prop :=
  (∀ s : State, s.takeReport none = s) ∧
  (∀ s : State, s.handReport none = s) ∧
  (∀ (i : SlotId) (s : State),
    s.handReport (some ⟨i, .completed⟩) = { s with seq := { s.seq with reports := s.seq.reports ++ [i] } } ∧
    s.handReport (some ⟨i, .cut⟩) = s.takeReport (some ⟨i, .cut⟩)) ∧
  (∀ (which : SlotId → Bool) (s : State),
    s.takeReports which = (s.seq.reports.filter which).foldl (fun u i => u.takeReport (some ⟨i, .completed⟩))
      { s with seq := { s.seq with reports := s.seq.reports.filter fun i => !which i } } ∧
    ((∀ i ∈ s.seq.reports, which i = false) → s.takeReports which = s)) ∧
  ∀ (i : SlotId) (s : State),
    let x := s.slot i
    let counted := s.updSlot i fun x =>
      { x with counters := { x.counters with sweepsDone := x.counters.sweepsDone + 1 } }
    let final := x.fields.sweepCount.toNat ≠ 0 ∧ (x.counters.sweepsDone + 1).toNat = x.fields.sweepCount.toNat
    (x.state = .running → final → s.takeReport (some ⟨i, .completed⟩) = counted.endPosting i (some .completed)) ∧
    (x.state = .running → ¬final → x.pendingTrigger = true → s.takeReport (some ⟨i, .completed⟩) =
      (counted.updSlot i fun x => { x with pendingTrigger := false }).madeDue i s.arbiter.newStamp) ∧
    (x.state = .running → ¬final → x.pendingTrigger = false → x.fields.source = 0 →
      s.takeReport (some ⟨i, .completed⟩) = counted.madeDue i s.arbiter.newStamp) ∧
    (x.state = .running → ¬final → x.pendingTrigger = false → x.fields.source ≠ 0 →
      s.takeReport (some ⟨i, .completed⟩) = counted.updSlot i fun x => { x with state := .armed }) ∧
    (∀ cut, x.state = .draining ⟨.cancel, cut⟩ →
      (final → s.takeReport (some ⟨i, .completed⟩) = counted.endPosting i (some .completedDespiteCancel)) ∧
      (¬final → s.takeReport (some ⟨i, .completed⟩) = counted.endPosting i (some .cancelled)) ∧
      s.takeReport (some ⟨i, .cut⟩) = s.endPosting i (some .cancelled)) ∧
    (∀ cut, x.state = .draining ⟨.overrun, cut⟩ →
      (final → s.takeReport (some ⟨i, .completed⟩) = counted.endPosting i (some .completed)) ∧
      (¬final → s.takeReport (some ⟨i, .completed⟩) = counted.endPosting i (some .overrun)) ∧
      s.takeReport (some ⟨i, .cut⟩) = s.endPosting i (some .overrun))

/-- CANCEL: its checks, and what it does by the state of the request. -/
def Obligations.Cancel : Prop :=
  ∀ (p : Port) (s : State), s.OpenAtCommand p →
    ((∀ i, ¬s.NamesOwnSlot p i) → ∃ w, exec (.cancel p) s = .next (s.answered p w 5 .notOwner)) ∧
    ∀ i, s.NamesOwnSlot p i →
      let mode := (s.port p).params.p1.toNat
      let drains := fun (cause : DrainCause) (cut : Bool) =>
        s.updSlot i fun x => { x with state := .draining ⟨cause, cut⟩ }
      let handed := fun t : State => { t with seq := { t.seq with cuts := t.seq.cuts ++ [i] } }
      (1 < mode → ∃ w, exec (.cancel p) s = .next (s.answered p w 5 .badField)) ∧
      (mode ≤ 1 → (s.slot i).state = .idle → ∃ w, exec (.cancel p) s = .next (s.answered p w 5 .notActive)) ∧
      (mode ≤ 1 → (s.slot i).state = .armed ∨ (s.slot i).state = .due ∨ (s.slot i).state = .stalled →
        ∃ w, exec (.cancel p) s = .next ((s.endPosting i (some .cancelled)).answered p w 5 .ok)) ∧
      ((s.slot i).state = .running → mode = 0 →
        ∃ w, exec (.cancel p) s = .next ((drains .cancel false).answered p w 5 .ok)) ∧
      ((s.slot i).state = .running → mode = 1 →
        ∃ w, exec (.cancel p) s = .next ((handed (drains .cancel true)).answered p w 5 .ok)) ∧
      ∀ cause,
        ((s.slot i).state = .draining ⟨cause, false⟩ → mode = 1 →
          ∃ w, exec (.cancel p) s = .next ((handed (drains cause true)).answered p w 5 .ok)) ∧
        ((s.slot i).state = .draining ⟨cause, false⟩ → mode = 0 →
          ∃ w, exec (.cancel p) s = .next (s.answered p w 5 .already)) ∧
        ((s.slot i).state = .draining ⟨cause, true⟩ → mode ≤ 1 →
          ∃ w, exec (.cancel p) s = .next (s.answered p w 5 .already))

/-- TRIGGER: its checks, and what the trigger turns into by the state of the request (the count of free values used, `k`,
is the model's own, notes/assumptions/27.md). -/
def Obligations.Trigger : Prop :=
  ∀ (p : Port) (s : State), s.OpenAtCommand p →
    ((∀ i, ¬s.NamesOwnSlot p i) → ∃ w, exec (.trigger p) s = .next (s.answered p w 6 .notOwner)) ∧
    ∀ i, s.NamesOwnSlot p i →
      let x := s.slot i
      let gives := fun t : State => ∃ w k, exec (.trigger p) s = .next ({ t with freeCount := k }.answered p w 6 .ok)
      let pends := s.updSlot i fun x => { x with pendingTrigger := true }
      let overruns := (s.triggerMissed i).raise p .triggerMissed
      (x.fields.source.toNat ≠ 9 → ∃ w, exec (.trigger p) s = .next (s.answered p w 6 .badField)) ∧
      (x.fields.source.toNat = 9 → x.state = .idle →
        ∃ w, exec (.trigger p) s = .next (s.answered p w 6 .notActive)) ∧
      (x.fields.source.toNat = 9 → x.state = .armed → gives (s.madeDue i s.arbiter.newStamp)) ∧
      (x.fields.source.toNat = 9 → x.state = .due ∨ x.state = .stalled ∨ x.state = .running →
        (x.pendingTrigger = false → gives pends) ∧
        (x.pendingTrigger = true → x.fields.strict = false → gives overruns) ∧
        (x.pendingTrigger = true → x.fields.strict = true → x.state ≠ .running →
          gives (overruns.endPosting i (some .overrun))) ∧
        (x.pendingTrigger = true → x.fields.strict = true → x.state = .running →
          gives (overruns.updSlot i fun x => { x with state := .draining ⟨.overrun, false⟩ }))) ∧
      (x.fields.source.toNat = 9 → ∀ d, x.state = .draining d → gives (s.triggerMissed i))

/-- POP_COMPLETION, in either port state; RELEASE_SLOTS clears New Data on every named latest-value slot and keeps the
records. -/
def Obligations.PopAndRelease : Prop :=
  (∀ (p : Port) (s : State), s.AtWord p 0x01C →
    ((s.port p).completions = [] → ∃ w, exec (.popCompletion p) s = .next (s.answered p w 9 .empty)) ∧
    ∀ r rest, (s.port p).completions = r :: rest →
      ∃ w, exec (.popCompletion p) s = .next ((s.updPort p fun ps => { ps with completions := rest }).answered p w 9 .ok)) ∧
  (∀ (p : Port) (s : State), s.OpenAtCommand p →
    ∃ w v, exec (.releaseSlots p) s = .next ((s.updPort p fun ps => { ps with latest := v }).answered p w 8 .ok) ∧
      ∀ n : Fin 16, tget v n = if (s.port p).params.p0.getLsbD n.val = true then
        { tget (s.port p).latest n with newData := false } else tget (s.port p).latest n)

/-! ### Queues and latest-value slots -/

/-- ACK_QUEUE: its checks, the three answers, and the accepted acknowledgement with the STALLED requests that then fit. -/
def Obligations.AckQueue : Prop :=
  ∀ (p : Port) (s : State), s.OpenAtCommand p →
    (1 < (s.port p).params.p0.toNat → ∃ w, exec (.ackQueue p) s = .next (s.answered p w 7 .badField)) ∧
    ∀ (q : QueueId) (code : Nat), (q = .q0 ∧ code = 0) ∨ (q = .q1 ∧ code = 1) → (s.port p).params.p0.toNat = code →
      let r := (s.port p).ring q
      let size := ((s.port p).queueConfig q).size.toNat
      let oldest := r.nextNumber - BitVec.ofNat 16 r.fill
      let d := ((s.port p).params.p1 - oldest).toNat
      let behind := (oldest - (s.port p).params.p1).toNat
      let stale := ((s.port p).queueConfig q).mode = 1 ∧ 1 ≤ behind ∧ behind ≤ r.overwritten
      (r.fill ≤ d → stale → ∃ w, exec (.ackQueue p) s = .next (s.answered p w 7 .staleIndex)) ∧
      (r.fill ≤ d → ¬stale → ∃ w, exec (.ackQueue p) s = .next (s.answered p w 7 .badIndex)) ∧
      (d < r.fill → ∃ (w : Word) (t : State), exec (.ackQueue p) s = .next (t.answered p w 7 .ok) ∧
        (t.port p).ring q = { r with get := (r.get + d + 1) % size, fill := r.fill - (d + 1), overwritten := 0 } ∧
        (∀ q', q' ≠ q → (t.port p).ring q' = (s.port p).ring q') ∧
        ((t.port p).timeout = if d + 1 = r.fill ∧ (s.port p).config.timeoutSource.toNat = code + 1 then
            ⟨(s.port p).config.timeoutPreset.toNat, .held, 0⟩ else (s.port p).timeout) ∧
        (∀ i, t.slot i = if (s.slot i).state = .stalled ∧ slotOwner i = p ∧
              (s.slot i).fields.target.toNat = code + 1 ∧
              (s.slot i).fields.scanLength.toNat ≤ size - (r.fill - (d + 1)) - r.reserved then
            { s.slot i with state := .due } else s.slot i) ∧
        t = { s.updPort p (fun ps => { ps.updRing q (fun _ => (t.port p).ring q) with timeout := (t.port p).timeout })
          with slots := t.slots })

/-- The queue timeout counter: a unit of 100 µs lowers the value, and 0 raises QUEUE_TIMEOUT. TIMER_UNIT: a completed unit
of a counting timer lowers its count. The model's choices: where they are not due they change nothing
(notes/assumptions/3.md), and a unit that is complete and not yet taken leaves its surplus to the next unit, `elapsed - 100`
and `phase - prescaleInUse` (16.md). -/
def Obligations.CountersFall : Prop :=
  (∀ (p : Port) (s : State),
    let c := (s.port p).timeout
    (c.state = .counting → 100 ≤ c.elapsed → 0 < c.value → exec (.queueTimeoutTick p) s = .next (s.updPort p fun ps =>
      { ps with timeout := { ps.timeout with value := ps.timeout.value - 1, elapsed := ps.timeout.elapsed - 100 } })) ∧
    (c.state ≠ .counting ∨ c.elapsed < 100 ∨ c.value = 0 → exec (.queueTimeoutTick p) s = .next s) ∧
    (c.state = .counting → c.value = 0 → exec (.queueTimeoutExpiry p) s = .next
      ((s.updPort p fun ps => { ps with timeout := { ps.timeout with state := .expired } }).raise p .queueTimeout)) ∧
    (c.state ≠ .counting ∨ c.value ≠ 0 → exec (.queueTimeoutExpiry p) s = .next s)) ∧
  (∀ (n : Fin 4) (s : State),
    let due := (∃ p, (s.timer n).state = .running p) ∨ (s.timer n).state = .orphanedRunning
    (due → (s.timer n).prescaleInUse ≤ (s.timer n).phase → 0 < (s.timer n).count → exec (.timerUnit n) s = .next
      (s.updTimer n fun t => { t with count := t.count - 1, phase := t.phase - t.prescaleInUse })) ∧
    (¬due ∨ (s.timer n).phase < (s.timer n).prescaleInUse ∨ (s.timer n).count = 0 → exec (.timerUnit n) s = .next s))

/-- A store into a queue of an OPEN port that is not full, by a STALL own store or by any other. -/
def Obligations.QueueStore : Prop :=
  ∀ (ps : PortState) (q : QueueId) (code : Nat) (reserved : Bool) (rec : SampleRecord),
    (q = .q0 ∧ code = 1) ∨ (q = .q1 ∧ code = 2) → (ps.ring q).put < 64 →
    let r := ps.ring q
    let size := (ps.queueConfig q).size.toNat
    let watermark := (ps.queueConfig q).watermark.toNat
    let t := ps.append q reserved rec
    (t.ring q).fill = r.fill + 1 ∧ (t.ring q).put = (if r.put + 1 < size then r.put + 1 else 0) ∧
    (t.ring q).get = r.get ∧ (t.ring q).nextNumber = r.nextNumber + 1 ∧ (t.ring q).overwritten = r.overwritten ∧
    (t.ring q).reserved = (if reserved then r.reserved - 1 else r.reserved) ∧
    (∀ k : Fin 64, tget (t.ring q).positions k =
      if k.val = r.put then ⟨r.nextNumber, rec⟩ else tget r.positions k) ∧
    (∀ q', q' ≠ q → t.ring q' = ps.ring q') ∧
    (∀ e, t.flag e = (ps.flag e || decide (e = watermarkEvent q ∧ watermark ≠ 0 ∧ r.fill + 1 = watermark) ||
      decide (e = fullEvent q ∧ r.fill + 1 = size))) ∧
    t.timeout = (if r.fill = 0 ∧ ps.config.timeoutSource.toNat = code ∧ ps.timeout.state = .held then
      ⟨ps.config.timeoutPreset.toNat, .counting, 0⟩ else ps.timeout) ∧
    t.latest = ps.latest ∧ t.completions = ps.completions ∧ t.watched = ps.watched ∧ ps.SettingsSame t

/-- Which store a sample that holds no reservation meets at a queue (a DROP own store or a shared store), and what a store
into a full queue in OVERWRITE mode does. -/
def Obligations.StoreWithoutReservation : Prop :=
  (∀ (ps : PortState) (q : QueueId) (rec : SampleRecord),
    let r := ps.ring q
    let size := (ps.queueConfig q).size.toNat
    (size = 0 → ps.storeUnreserved q rec = (ps.raise (lostEvent q), false)) ∧
    (0 < size → (ps.queueConfig q).mode = 1 → r.fill < size →
      ps.storeUnreserved q rec = (ps.append q false rec, true)) ∧
    (0 < size → (ps.queueConfig q).mode = 1 → size ≤ r.fill →
      ps.storeUnreserved q rec = (ps.overwriteOldest q rec, true)) ∧
    (0 < size → (ps.queueConfig q).mode ≠ 1 → r.fill + r.reserved < size →
      ps.storeUnreserved q rec = (ps.append q false rec, true)) ∧
    (0 < size → (ps.queueConfig q).mode ≠ 1 → size ≤ r.fill + r.reserved →
      ps.storeUnreserved q rec = (ps.raise (lostEvent q), false))) ∧
  (∀ (ps : PortState) (q : QueueId) (rec : SampleRecord), (ps.ring q).get < 64 →
    let r := ps.ring q
    let size := (ps.queueConfig q).size.toNat
    let next := fun k : Nat => if k + 1 < size then k + 1 else 0
    let t := ps.overwriteOldest q rec
    (t.ring q).fill = r.fill ∧ (t.ring q).reserved = r.reserved ∧ (t.ring q).put = next r.put ∧
    (t.ring q).get = next r.get ∧ (t.ring q).nextNumber = r.nextNumber + 1 ∧
    (t.ring q).overwritten = (if r.overwritten < 32768 then r.overwritten + 1 else 32768) ∧
    (∀ k : Fin 64, tget (t.ring q).positions k =
      if k.val = r.get then ⟨r.nextNumber, rec⟩ else tget r.positions k) ∧
    (∀ q', q' ≠ q → t.ring q' = ps.ring q') ∧ (∀ e, t.flag e = (ps.flag e || decide (e = lostEvent q))) ∧
    t.timeout = ps.timeout ∧ t.latest = ps.latest ∧ t.completions = ps.completions ∧ t.watched = ps.watched ∧
    ps.SettingsSame t)

/-- The Delivery Unit takes a sample: entries produced, own delivery with the counter it moves, and one evaluation at each
other OPEN port if the posting shares. A STALL posting that holds no place, which no run reaches, stores without one (the
model's choice, notes/assumptions/24.md). -/
def Obligations.SampleDelivery : Prop :=
  (∀ (x : Sample) (rec : SampleRecord) (s : State),
    let f := (s.slot x.slot).fields
    let p := slotOwner x.slot
    let counted := fun (stored : Bool) (t : State) => t.updSlot x.slot fun y => { y with counters :=
      if stored then { y.counters with samplesDelivered := y.counters.samplesDelivered + 1 }
      else { y.counters with samplesLost := y.counters.samplesLost + 1 } }
    (f.target.toNat = 0 → s.deliverOwn x rec = s) ∧
    (∀ q code, (q = .q0 ∧ code = 1) ∨ (q = .q1 ∧ code = 2) → f.target.toNat = code →
      f.policy.toNat = 0 ∨ (s.slot x.slot).held = 0 → s.deliverOwn x rec = counted ((s.port p).storeUnreserved q rec).2
        (s.updPort p fun ps => (ps.storeUnreserved q rec).1)) ∧
    (∀ q code, (q = .q0 ∧ code = 1) ∨ (q = .q1 ∧ code = 2) → f.target.toNat = code → f.policy.toNat = 1 →
      0 < (s.slot x.slot).held → ((s.port p).ring q).fill < ((s.port p).queueConfig q).size.toNat →
      s.deliverOwn x rec = (counted true (s.updPort p (PortState.append q true rec))).updSlot x.slot fun y =>
        { y with held := y.held - 1 }) ∧
    (∀ n : Fin 16, f.target.toNat = 3 → f.policy.toNat = 0 → f.base.toNat + x.entry = n.val →
      ((tget (s.port p).latest n).newData = false → s.deliverOwn x rec =
        counted true ((s.updPort p fun ps => { ps with latest := tset ps.latest n ⟨rec, true⟩ }).raise p .slotNew)) ∧
      ((tget (s.port p).latest n).newData = true → s.deliverOwn x rec = counted false s))) ∧
  (∀ (x : Sample) (s : State),
    let produced := s.updSlot x.slot fun y =>
      { y with counters := { y.counters with entriesProduced := y.counters.entriesProduced + 1 } }
    let own := produced.deliverOwn x (s.copyRecord (slotOwner x.slot) false x)
    ((s.slot x.slot).fields.share = false → s.deliver none x = own) ∧
    ((s.slot x.slot).fields.share = true → (s.deliver none x).slots = own.slots ∧
      (s.deliver none x).port (slotOwner x.slot) = own.port (slotOwner x.slot) ∧
      ∀ q, q ≠ slotOwner x.slot → (s.deliver none x).port q =
        if (s.port q).mode = .opened then (s.port q).offer (s.copyRecord q true x) else s.port q))

/-- When a filter element matches a copy, and shared delivery at one port: the first element that applies decides, else the
unmatched action, and what each action does. -/
def Obligations.SharedDelivery : Prop :=
  (∀ (f : FilterElement) (ch : Channel) (tag : BitVec 8),
    (f.kind = 0 → (f.kindMatches ch tag = true ↔
      (f.first.setWidth 5).toNat ≤ ch.toNat ∧ ch.toNat ≤ (f.second.setWidth 5).toNat)) ∧
    (f.kind = 1 → (f.kindMatches ch tag = true ↔ ch = f.first.setWidth 5 ∨ ch = f.second.setWidth 5)) ∧
    (f.kind = 2 → (f.kindMatches ch tag = true ↔ ch &&& f.second.setWidth 5 = f.first.setWidth 5 &&& f.second.setWidth 5)) ∧
    (f.kind = 3 → (f.kindMatches ch tag = true ↔ tag &&& f.second = f.first &&& f.second)) ∧
    (f.accepts .a = f.sources.getLsbD 0 ∧ f.accepts .b = f.sources.getLsbD 1 ∧ f.accepts .c = f.sources.getLsbD 2)) ∧
  (∀ (ps : PortState) (rec : SampleRecord),
    let applies := fun f : FilterElement => f.enabled = true ∧ f.accepts rec.sourcePort = true ∧
      f.kindMatches rec.channel rec.tag = true ∧ f.action.toNat ≤ 5 ∧
      (f.action.toNat = 5 → (tget ps.latest ⟨f.slot.toNat, f.slot.isLt⟩).newData = false)
    let urgent := ps.storeUnreserved .q0 { rec with urgent := true }
    let does := fun code : Nat => if code = 1 then (ps.storeUnreserved .q0 rec).1
      else if code = 2 then (ps.storeUnreserved .q1 rec).1
      else if code = 3 then (if urgent.2 then urgent.1.raise .urgent else urgent.1)
      else if code = 4 then { ps with watched := ps.watched ||| BitVec.twoPow 32 rec.channel.toNat }.raise .watched
      else ps
    (∀ k : Fin 16, applies (tget ps.filters k) → (∀ j, j < k → ¬applies (tget ps.filters j)) →
      let f := tget ps.filters k
      (f.action.toNat ≠ 5 → ps.offer rec = does f.action.toNat) ∧
      (f.action.toNat = 5 → ps.offer rec =
        { ps with latest := tset ps.latest ⟨f.slot.toNat, f.slot.isLt⟩ ⟨rec, true⟩ }.raise .slotNew)) ∧
    ((∀ j, ¬applies (tget ps.filters j)) → ps.offer rec = does (if ps.unmatched.toNat ≤ 2 then ps.unmatched.toNat else 0)))

/-- The calibrated value: the rounded quotient, clamped, with CLAMP set where it was clamped. -/
def Obligations.CalibratedValue : Prop :=
  ∀ (a : Int) (c : Coefficients), ∃ v : Int,
    let product := (a - c.offset.toInt) * (c.gain.toNat : Int)
    (∀ k : Int, (16384 * v - product).natAbs ≤ (16384 * k - product).natAbs) ∧
    (∀ k : Int, k ≠ v → (16384 * v - product).natAbs = (16384 * k - product).natAbs → k.natAbs < v.natAbs) ∧
    calibrated a c = if 32767 < v then (32767, true) else if v < -32768 then (-32768, true) else (v, false)

/-- Which value and cal-source flag the copy of a sample for port `p` carries. -/
def Obligations.CopyChoosesCoefficients : Prop :=
  ∀ (p : Port) (shared : Bool) (x : Sample) (s : State),
    let e := s.calEntry x.channel
    let r := s.copyRecord p shared x
    let carries := fun (v : Int × Bool) (c : CalSource) =>
      r.value = BitVec.ofInt 16 v.1 ∧ r.clamp = v.2 ∧ r.calSource = c
    ((s.slot x.slot).fields.raw = true → carries (x.average, false) .raw) ∧
    ((s.slot x.slot).fields.raw = false →
      (∀ c, e.provisional = some c → s.HoldsLease p → carries (calibrated x.average c) .provisional) ∧
      (e.provisional = none ∨ ¬s.HoldsLease p →
        (e.source = .loading → carries (calibrated x.average e.committed) .loading) ∧
        (e.source = .default → carries (calibrated x.average e.committed) .default) ∧
        (e.source = .factory → carries (calibrated x.average e.committed) .factory) ∧
        (e.source = .field → carries (calibrated x.average e.committed) .field))) ∧
    r.channel = x.channel ∧ r.entry = BitVec.ofNat 4 x.entry ∧ r.slot = x.slot ∧ r.sourcePort = slotOwner x.slot ∧
    r.tag = (s.slot x.slot).fields.tag ∧ r.sweepIndex = x.sweepIndex ∧ r.timestamp = x.timestamp ∧
    r.overRange = x.overRange ∧ r.shared = shared ∧ r.urgent = false

/-! ### Timers and lines -/

/-- The checks that the timer commands share, the number and for all but CLAIM_TIMER the ownership; and CLAIM_TIMER by the
timer's state. -/
def Obligations.ClaimTimer : Prop :=
  (∀ (p : Port) (s : State), s.OpenAtCommand p →
    (∀ k c, (k, c) ∈ [(10, Instr.claimTimer p), (11, .setTimer p), (12, .startTimer p), (13, .stopTimer p),
        (14, .releaseTimer p)] → 3 < (s.port p).params.p0.toNat →
      ∃ w, exec c s = .next (s.answered p w k .badField)) ∧
    ∀ k c n, (k, c) ∈ [(11, Instr.setTimer p), (12, .startTimer p), (13, .stopTimer p), (14, .releaseTimer p)] →
      s.NamesNumber p n → (s.timer n).state.owner ≠ some p → ∃ w, exec c s = .next (s.answered p w k .notOwner)) ∧
  (∀ (p : Port) (n : Fin 4) (s : State), s.OpenAtCommand p → s.NamesNumber p n →
    let becomes := fun f : Timer → Timer => ∃ w, exec (.claimTimer p) s = .next ((s.updTimer n f).answered p w 10 .ok)
    ((s.timer n).state = .free → becomes fun t => { t with state := .held p, count := 0 }) ∧
    ((s.timer n).state = .orphanedStopped → becomes fun t => { t with state := .held p }) ∧
    ((s.timer n).state = .orphanedRunning → becomes fun t => { t with state := .running p }) ∧
    (∀ q, q ≠ p → (s.timer n).state = .held q ∨ (s.timer n).state = .running q →
      ∃ w, exec (.claimTimer p) s = .next (s.answered p w 10 .inUse)) ∧
    ((s.timer n).state = .held p ∨ (s.timer n).state = .running p →
      ∃ w, exec (.claimTimer p) s = .next (s.answered p w 10 .already)))

/-- SET_TIMER, START_TIMER and STOP_TIMER by the timer's owner. -/
def Obligations.SetStartStopTimer : Prop :=
  (∀ (p : Port) (n : Fin 4) (s : State), s.OpenAtCommand p → s.NamesNumber p n →
    (s.timer n).state = .held p ∨ (s.timer n).state = .running p →
    let prescale := (s.port p).params.p1.toNat
    let period := (s.port p).params.p2.toNat
    let refused := prescale < 1 ∨ 256 < prescale ∨ period < 2 ∨ 65535 < period ∨ prescale * period < 10
    (refused → ∃ w, exec (.setTimer p) s = .next (s.answered p w 11 .badField)) ∧
    (¬refused → ∃ w, exec (.setTimer p) s = .next
      ((s.updTimer n fun t => { t with prescale := prescale, period := period }).answered p w 11 .ok))) ∧
  (∀ (p : Port) (n : Fin 4) (s : State), s.OpenAtCommand p → s.NamesNumber p n →
    ((s.timer n).state = .held p → ∃ w, exec (.startTimer p) s = .next ((s.updTimer n fun t =>
      { t with state := .running p, prescaleInUse := t.prescale, periodInUse := t.period, count := t.period,
               phase := 0 }).answered p w 12 .ok)) ∧
    ((s.timer n).state = .running p → ∃ w, exec (.startTimer p) s = .next (s.answered p w 12 .already)) ∧
    ((s.timer n).state = .running p → ∃ w, exec (.stopTimer p) s = .next
      ((s.updTimer n fun t => { t with state := .held p }).answered p w 13 .ok)) ∧
    ((s.timer n).state = .held p → ∃ w, exec (.stopTimer p) s = .next (s.answered p w 13 .already)))

/-- RELEASE_TIMER by the timer's owner. -/
def Obligations.ReleaseTimer : Prop :=
  ∀ (p : Port) (n : Fin 4) (s : State), s.OpenAtCommand p → s.NamesNumber p n →
    let becomes := fun f : Timer → Timer => ∃ w, exec (.releaseTimer p) s = .next ((s.updTimer n f).answered p w 14 .ok)
    ((s.timer n).state = .held p ∨ (s.timer n).state = .running p → (s.timer n).refs = 0 →
      becomes fun t => { t with state := .free, count := 0 }) ∧
    ((s.timer n).state = .held p → 0 < (s.timer n).refs → becomes fun t => { t with state := .orphanedStopped }) ∧
    ((s.timer n).state = .running p → 0 < (s.timer n).refs → becomes fun t => { t with state := .orphanedRunning })

/-- TIMER_EXPIRY: the timer reloads, and every request that names it takes its trigger by its own state, those that become
DUE with one new stamp; then the postings that the trigger ends at once, strict overruns of requests that are DUE or
STALLED, end with OVERRUN in some order, each with its overrun counted and raised. That the endings come last is the
model's choice (notes/assumptions/22.md), as is the free order among them (7.md); `k` counts free values (27.md). The last
clause is the case of one such posting and no other request. -/
def Obligations.TimerExpiry : Prop :=
  (∀ (n : Fin 4) (s : State), (∃ p, (s.timer n).state = .running p) ∨ (s.timer n).state = .orphanedRunning →
    (s.timer n).count = 0 →
    let names := fun i => (s.slot i).fields.source.toNat = n.val + 1
    let active := fun i => (s.slot i).state = .due ∨ (s.slot i).state = .stalled ∨ (s.slot i).state = .running
    let ends := fun i => names i ∧ (s.slot i).pendingTrigger = true ∧ (s.slot i).fields.strict = true ∧
      ((s.slot i).state = .due ∨ (s.slot i).state = .stalled)
    ∃ (t : State) (order : List SlotId) (k : Nat), order.Nodup ∧ (∀ i, i ∈ order ↔ ends i) ∧
      exec (.timerExpiry n) s = .next { (order.foldl (fun u i =>
        ((u.triggerMissed i).raise (slotOwner i) .triggerMissed).endPosting i (some .overrun)) t) with freeCount := k } ∧
      t.timer n = { s.timer n with prescaleInUse := (s.timer n).prescale, periodInUse := (s.timer n).period,
                                   count := (s.timer n).period, phase := 0 } ∧
      (∀ m, m ≠ n → t.timer m = s.timer m) ∧
      (∀ i, ¬names i ∨ (s.slot i).state = .idle ∨ ends i → t.slot i = s.slot i) ∧
      (∀ i, names i → ¬ends i →
        let x := s.slot i
        let missed := { x with counters := { x.counters with triggersMissed := x.counters.triggersMissed + 1 } }
        (x.state = .armed → t.slot i = { x with state := .due, dueStamp := s.arbiter.newStamp }) ∧
        (active i → x.pendingTrigger = false → t.slot i = { x with pendingTrigger := true }) ∧
        (active i → x.pendingTrigger = true → x.fields.strict = false → t.slot i = missed) ∧
        (x.state = .running → x.pendingTrigger = true → x.fields.strict = true →
          t.slot i = { missed with state := .draining ⟨.overrun, false⟩ }) ∧
        (∀ d, x.state = .draining d → t.slot i = missed)) ∧
      (∀ p,
        ((∃ i, slotOwner i = p ∧ names i ∧ ¬ends i ∧ active i ∧ (s.slot i).pendingTrigger = true) →
          t.port p = (s.port p).raise .triggerMissed) ∧
        ((∀ i, slotOwner i = p → names i → ¬ends i → active i → (s.slot i).pendingTrigger = false) →
          t.port p = s.port p)) ∧
      ((∃ i, names i ∧ (s.slot i).state = .armed) →
        t.arbiter = { s.arbiter with stampOrder := s.arbiter.stampOrder ++ [s.arbiter.newStamp]
                                     stampCounter := s.arbiter.newStamp }) ∧
      ((∀ i, names i → (s.slot i).state ≠ .armed) → t.arbiter = s.arbiter) ∧
      t.lines = s.lines ∧ t.seq = s.seq ∧ t.cal = s.cal ∧ t.store = s.store ∧ t.now = s.now ∧ t.inReset = s.inReset ∧
      t.pending = s.pending) ∧
  (∀ (n : Fin 4) (i : SlotId) (s : State), (∃ p, (s.timer n).state = .running p) ∨ (s.timer n).state = .orphanedRunning →
    (s.timer n).count = 0 → (s.slot i).fields.source.toNat = n.val + 1 → (s.slot i).pendingTrigger = true →
    (s.slot i).fields.strict = true → (s.slot i).state = .due ∨ (s.slot i).state = .stalled →
    (∀ j, j ≠ i → (s.slot j).fields.source.toNat = n.val + 1 → (s.slot j).state = .idle) →
    ∃ k, exec (.timerExpiry n) s = .next { ((((s.updTimer n fun t =>
      { t with prescaleInUse := t.prescale, periodInUse := t.period, count := t.period, phase := 0 }).triggerMissed
        i).raise (slotOwner i) .triggerMissed).endPosting i (some .overrun)) with freeCount := k })

/-- SET_LINE: its checks, and the new settings without an edge. LINE_INPUT_CHANGE and LINE_QUALIFICATION_END: how a change
of the input is qualified, and when it triggers. An input that has the level already, and an end that is not due, change
nothing (the model's choice, notes/assumptions/3.md). -/
def Obligations.TriggerLines : Prop :=
  (∀ (p : Port) (s : State), s.OpenAtCommand p →
    (3 < (s.port p).params.p0.toNat ∨ 2 < (s.port p).params.p1.toNat ∨ 3 < (s.port p).params.p2.toNat →
      ∃ w, exec (.setLine p) s = .next (s.answered p w 15 .badField)) ∧
    ∀ n e d, s.NamesNumber p n → (s.port p).params.p1.toNat = EdgeSetting.code e →
      (s.port p).params.p2.toNat = Debounce.code d →
      ((∃ i, (s.slot i).state ≠ .idle ∧ (s.slot i).fields.source.toNat = n.val + 5) →
        ∃ w, exec (.setLine p) s = .next (s.answered p w 15 .inUse)) ∧
      ((∀ i, (s.slot i).fields.source.toNat = n.val + 5 → (s.slot i).state = .idle) →
        ∃ w, exec (.setLine p) s = .next ((s.updLine n fun l =>
          { l with edge := e, debounce := d, level := l.input, candidate := none }).answered p w 15 .ok))) ∧
  ∀ (n : Fin 4) (level : Bool) (s : State), s.inReset = false →
    let l := s.line n
    let time := fun d : Debounce => match d with | .none => 0 | .us4 => 4 | .us64 => 64 | .ms1 => 1000
    let qualified := fun (v : Bool) (t : State) =>
      let u := t.updLine n fun l => { l with level := v, candidate := none }
      if l.edge = .both ∨ (l.edge = .rising ∧ v = true) ∨ (l.edge = .falling ∧ v = false) then
        u.deliverTriggers (allSlots.filter fun i =>
          (s.slot i).fields.source.toNat == n.val + 5 && (s.slot i).state != .idle)
      else u
    let moved := s.updLine n fun l => { l with input := level }
    (l.input = level → exec (.lineInputChange n level) s = .next s) ∧
    (l.input ≠ level → l.level = level →
      exec (.lineInputChange n level) s = .next (moved.updLine n fun l => { l with candidate := none })) ∧
    (l.input ≠ level → l.level ≠ level → l.debounce = .none →
      exec (.lineInputChange n level) s = .next (qualified level moved)) ∧
    (l.input ≠ level → l.level ≠ level → l.debounce ≠ .none → l.candidate = none →
      exec (.lineInputChange n level) s = .next
        (moved.updLine n fun l => { l with candidate := some ⟨level, s.now + time l.debounce⟩ })) ∧
    (∀ c, l.candidate = some c →
      (c.endTime ≤ s.now → exec (.lineQualificationEnd n) s = .next (qualified c.level s)) ∧
      (s.now < c.endTime → exec (.lineQualificationEnd n) s = .next s)) ∧
    (l.candidate = none → exec (.lineQualificationEnd n) s = .next s)

/-! ### Calibration and the store -/

/-- LEASE, its checks and the lease taken or renewed; END_LEASE by its holder and by another port; LEASE_EXPIRY (the
remaining time `r` that the view shows after an END_LEASE is left open, notes/assumptions/8.md; a LEASE_EXPIRY with no
holder, or with time remaining, changes nothing, the model's choice, 3.md). -/
def Obligations.LeaseBeginsAndEnds : Prop :=
  (∀ (p : Port) (s : State), s.OpenAtCommand p →
    let d := (s.port p).params.p0.toNat
    (d < 1 ∨ 255 < d → (s.HoldsLease p → ∃ w, exec (.lease p) s = .next (s.renewed.answered p w 16 .badField)) ∧
      (¬s.HoldsLease p → ∃ w, exec (.lease p) s = .next (s.answered p w 16 .badField))) ∧
    (1 ≤ d → d ≤ 255 → s.cal.lease.holder = none ∨ s.HoldsLease p → ∃ w, exec (.lease p) s = .next
      ({ s with cal := { s.cal with lease := ⟨some p, d, d * 100000⟩ } }.answered p w 16 .ok)) ∧
    (1 ≤ d → d ≤ 255 → (∃ q, q ≠ p ∧ s.HoldsLease q) →
      ∃ w, exec (.lease p) s = .next (s.answered p w 16 .leaseHeld))) ∧
  ((∀ (p : Port) (s : State), s.OpenAtCommand p →
    (¬s.HoldsLease p → ∃ w, exec (.endLease p) s = .next (s.answered p w 17 .noLease)) ∧
    (s.HoldsLease p → ∃ (w : Word) (v : Vector CalEntry 32) (r k : Nat), exec (.endLease p) s = .next
      ({ s with cal := { s.cal with table := v, lease := { s.cal.lease with holder := none, remaining := r } }
                freeCount := k }.answered p w 17 .ok) ∧
      ∀ ch, tget v ch = { tget s.cal.table ch with provisional := none })) ∧
  ∀ s : State,
    (s.cal.lease.holder = none ∨ s.cal.lease.remaining ≠ 0 → exec .leaseExpiry s = .next s) ∧
    ∀ p, s.HoldsLease p → s.cal.lease.remaining = 0 → ∃ v : Vector CalEntry 32, exec .leaseExpiry s = .next
      ({ s with cal := { s.cal with table := v, lease := { s.cal.lease with holder := none } } }.raise p .leaseLost) ∧
      ∀ ch, tget v ch = { tget s.cal.table ch with provisional := none })

/-- SET_PROVISIONAL and DROP_PROVISIONAL: their checks in order, and their effect. -/
def Obligations.ProvisionalCoefficients : Prop :=
  ∀ (p : Port) (s : State), s.OpenAtCommand p →
    let held := if s.cal.lease.holder = some p then s.renewed else s
    (31 < (s.port p).params.p0.toNat ∨ (s.port p).params.p2 = 0 →
      ∃ w, exec (.setProvisional p) s = .next (held.answered p w 18 .badField)) ∧
    (31 < (s.port p).params.p0.toNat → ∃ w, exec (.dropProvisional p) s = .next (held.answered p w 19 .badField)) ∧
    ∀ ch, s.NamesChannel p ch →
      ((s.port p).params.p2 ≠ 0 → ¬s.HoldsLease p →
        ∃ w, exec (.setProvisional p) s = .next (s.answered p w 18 .noLease)) ∧
      ((s.port p).params.p2 ≠ 0 → s.HoldsLease p → ∃ w, exec (.setProvisional p) s = .next
        ((s.renewed.updCalEntry ch fun e =>
          { e with provisional := some ⟨(s.port p).params.p1, (s.port p).params.p2⟩ }).answered p w 18 .ok)) ∧
      (¬s.HoldsLease p → ∃ w, exec (.dropProvisional p) s = .next (s.answered p w 19 .noLease)) ∧
      (s.HoldsLease p → (s.calEntry ch).provisional = none →
        ∃ w, exec (.dropProvisional p) s = .next (s.renewed.answered p w 19 .notActive)) ∧
      (s.HoldsLease p → (s.calEntry ch).provisional ≠ none → ∃ w, exec (.dropProvisional p) s = .next
        ((s.renewed.updCalEntry ch fun e => { e with provisional := none }).answered p w 19 .ok))

/-- COMMIT, BURN_FACTORY and RELOAD refused: their checks in order. -/
def Obligations.StoreCommandsRefused : Prop :=
  ∀ (p : Port) (s : State), s.OpenAtCommand p →
    let held := if s.cal.lease.holder = some p then s.renewed else s
    let three := [(20, Instr.commit p), (21, .burnFactory p), (22, .reload p)]
    (∀ k c, (k, c) ∈ three → 31 < (s.port p).params.p0.toNat →
      ∃ w, exec c s = .next (held.answered p w k .badField)) ∧
    ∀ ch, s.NamesChannel p ch →
      (∀ k c, (k, c) ∈ three → ¬s.HoldsLease p → ∃ w, exec c s = .next (s.answered p w k .noLease)) ∧
      (∀ k c, (k, c) ∈ three → k ≠ 22 → s.HoldsLease p → (s.calEntry ch).provisional = none →
        ∃ w, exec c s = .next (s.renewed.answered p w k .notActive)) ∧
      (s.HoldsLease p → (s.calEntry ch).provisional ≠ none → s.factoryRecord ch ≠ .unwritten →
        ∃ w, exec (.burnFactory p) s = .next (s.renewed.answered p w 21 .locked)) ∧
      (s.HoldsLease p → (s.calEntry ch).provisional ≠ none → s.store.op ≠ .idle →
        (∃ w, exec (.commit p) s = .next (s.renewed.answered p w 20 .busy)) ∧
        (s.factoryRecord ch = .unwritten → ∃ w, exec (.burnFactory p) s = .next (s.renewed.answered p w 21 .busy))) ∧
      (s.HoldsLease p → s.store.op ≠ .idle → ∃ w, exec (.reload p) s = .next (s.renewed.answered p w 22 .busy))

/-- COMMIT, BURN_FACTORY and RELOAD accepted: the commit record, the store's operation and its end, and the record that is
INVALID while it is written. -/
def Obligations.StoreCommandsAccepted : Prop :=
  ∀ (p : Port) (ch : Channel) (s : State), s.OpenAtCommand p → s.NamesChannel p ch → s.HoldsLease p →
    s.store.op = .idle →
    let begins := fun (t : State) (k : CommitKind) (op : StoreOp) (time : Nat) =>
      { t with cal := { t.cal with commit := some ⟨k, ch, p⟩ }, store := { t.store with op := op, opEnd := s.now + time } }
    (∀ c, (s.calEntry ch).provisional = some c →
      (∃ w, exec (.commit p) s = .next ((begins ((s.renewed.updCalEntry ch fun e =>
        { e with commitPending := true }).setFieldRecord ch .invalid) (.commit c) (.writingField ch c)
          5000).answered p w 20 .accepted)) ∧
      (s.factoryRecord ch = .unwritten → ∃ w, exec (.burnFactory p) s = .next ((begins
        (s.renewed.setFactoryRecord ch .invalid) (.burnFactory c) (.writingFactory ch c) 5000).answered p w 21
          .accepted))) ∧
    ∃ w, exec (.reload p) s = .next ((begins (s.renewed.updCalEntry ch fun e => { e with provisional := none }) .reload
      (.reading ch) (match s.fieldRecord ch with | .valid _ => 2500 | .unwritten => 5000 | .invalid => 5000)).answered
        p w 22 .accepted)

/-- STORE_WRITE_END of a COMMIT and of a BURN_FACTORY, verified and failed; STORE_READ_END and LOAD_CHANNEL_END: the
committed part from the records, and what the store does next. -/
def Obligations.StoreEnds : Prop :=
  (∀ (p : Port) (ch : Channel) (c : Coefficients) (s : State), s.inReset = false → s.store.opEnd ≤ s.now →
    let ends := fun t : State => { t with store := { t.store with op := .idle }, cal := { t.cal with commit := none } }
    (s.store.op = .writingField ch c → s.cal.commit = some ⟨.commit c, ch, p⟩ →
      exec (.storeWriteEnd true) s = .next ((ends ((s.setFieldRecord ch (.valid c)).updCalEntry ch fun e =>
        { committed := c, source := .field, commitPending := false
          provisional := if e.provisional = some c then none else e.provisional })).raise p .storeDone) ∧
      exec (.storeWriteEnd false) s = .next ((ends ((s.setFieldRecord ch .invalid).updCalEntry ch fun e =>
        { e with commitPending := false })).raise p .storeFailed)) ∧
    (s.store.op = .writingFactory ch c → s.cal.commit = some ⟨.burnFactory c, ch, p⟩ →
      exec (.storeWriteEnd true) s = .next ((ends ((s.setFactoryRecord ch (.valid c)).updCalEntry ch fun e =>
        if e.source = .default then { e with committed := c, source := .factory } else e)).raise p .storeDone) ∧
      exec (.storeWriteEnd false) s = .next ((ends (s.setFactoryRecord ch .invalid)).raise p .storeFailed))) ∧
  (∀ (ch : Channel) (s : State), s.inReset = false → s.store.opEnd ≤ s.now →
    let installed := s.updCalEntry ch fun e =>
      match s.fieldRecord ch, s.factoryRecord ch with
      | .valid c, _ => { e with committed := c, source := .field }
      | _, .valid c => { e with committed := c, source := .factory }
      | _, _ => { e with committed := ⟨0, 16384⟩, source := .default }
    let idle := { installed with store := { s.store with op := .idle } }
    (∀ k p, s.store.op = .reading ch → s.cal.commit = some ⟨k, ch, p⟩ → exec .storeReadEnd s = .next
      ({ idle with cal := { idle.cal with commit := none } }.raise p .storeDone)) ∧
    (s.store.op = .loading ch → ch = 31 →
      exec .loadChannelEnd s = .next (((idle.raise .a .loadDone).raise .b .loadDone).raise .c .loadDone)) ∧
    (s.store.op = .loading ch → ch ≠ 31 → exec .loadChannelEnd s = .next { installed with store :=
      { s.store with op := .loading (ch + 1)
                     opEnd := s.now + match s.fieldRecord (ch + 1) with
                       | .valid _ => 2500
                       | .unwritten => 5000
                       | .invalid => 5000 } }))

/-! ### The arbiter and the sequencer -/

/-- GRANT where every DUE request passes its room check: the member that R47 prefers is granted, and nothing else changes.
What a posting holds is the model's state (notes/assumptions/25.md); a grant adds the reservation to it (24.md). -/
def Obligations.GrantGoesToThePreferred : Prop :=
  ∀ (i : SlotId) (s : State), s.seq.selected = none → s.seq.active = none → s.seq.link = .ready →
    (s.slot i).state = .due → (∀ j, (s.slot j).state = .due → s.RoomFor j) →
    (∀ j, j ≠ i → (s.slot j).state = .due → s.Preferred i j) →
    let x := s.slot i
    let p := slotOwner i
    let e := x.fields.entryAt 0
    let index : Word := x.counters.sweepsDone.extractLsb' 0 16
    let first : SweepRecord := ⟨i, index, 0, 0, e.channel.setWidth 5, e.extension.toNat, e.count.toNat⟩
    let raised := fun r : Ring => { r with reserved := r.reserved + x.fields.scanLength.toNat }
    let reserves := x.fields.policy.toNat = 1 ∧ (x.fields.target.toNat = 1 ∨ x.fields.target.toNat = 2)
    ∃ t : State, exec .grant s = .next t ∧
      t.slot i = { x with state := .running, passedOver := 0,
                          held := if reserves then x.held + x.fields.scanLength.toNat else x.held } ∧
      (∀ j, j ≠ i → t.slot j = if (s.slot j).state = .due then
        { s.slot j with passedOver := if (s.slot j).passedOver < 8 then (s.slot j).passedOver + 1 else 8 }
        else s.slot j) ∧
      (x.fields.policy.toNat = 1 → x.fields.target.toNat = 1 →
        t.port p = { s.port p with ring0 := raised (s.port p).ring0 }) ∧
      (x.fields.policy.toNat = 1 → x.fields.target.toNat = 2 →
        t.port p = { s.port p with ring1 := raised (s.port p).ring1 }) ∧
      (¬reserves → t.port p = s.port p) ∧ (∀ q, q ≠ p → t.port q = s.port q) ∧
      t.arbiter.lastGranted = p ∧ t.arbiter.stampCounter = s.arbiter.stampCounter ∧
      t.arbiter.stampOrder.Sublist s.arbiter.stampOrder ∧
      (∀ w, w ∈ t.arbiter.stampOrder ↔ w ∈ s.arbiter.stampOrder ∧
        ∃ j, ((t.slot j).state = .due ∨ (t.slot j).state = .stalled) ∧ (t.slot j).dueStamp = w) ∧
      t.seq = { s.seq with
        active := some ⟨i, index⟩, selected := some first, selectedChannel := some first.channel
        settledTime := if s.seq.selectedChannel = some first.channel then s.seq.settledTime
          else s.now + 3 + 4 * first.extension } ∧
      t = { s with ports := t.ports, slots := t.slots, arbiter := t.arbiter, seq := t.seq }

/-- GRANT where some DUE requests fail the room check: the members preferred to the winner, or all of them, go to STALLED
with their stamps, and STALLED is raised at their ports. The winner is granted as where all pass: what a posting holds is
the model's state (notes/assumptions/25.md), to which a grant adds the reservation (24.md). -/
def Obligations.GrantStalls : Prop :=
  ∀ s : State, s.seq.selected = none → s.seq.active = none → s.seq.link = .ready → (∃ j, (s.slot j).state = .due) →
    ((∀ j, (s.slot j).state = .due → ¬s.RoomFor j) → ∃ t : State, exec .grant s = .next t ∧
      (∀ j, t.slot j = if (s.slot j).state = .due then { s.slot j with state := .stalled } else s.slot j) ∧
      (∀ p, t.port p = { s.port p with flags := (t.port p).flags } ∧
        ∀ e, (t.port p).flag e = true ↔ (s.port p).flag e = true ∨
          e = .stalled ∧ ∃ j, (s.slot j).state = .due ∧ slotOwner j = p) ∧
      t = { s with ports := t.ports, slots := t.slots }) ∧
    ∀ i, (s.slot i).state = .due → s.RoomFor i →
      (∀ j, (s.slot j).state = .due → s.Preferred j i → ¬s.RoomFor j) →
      let x := s.slot i
      let e := x.fields.entryAt 0
      let index : Word := x.counters.sweepsDone.extractLsb' 0 16
      let first : SweepRecord := ⟨i, index, 0, 0, e.channel.setWidth 5, e.extension.toNat, e.count.toNat⟩
      let reserves := fun code : Nat => x.fields.policy.toNat = 1 ∧ x.fields.target.toNat = code
      let scan := x.fields.scanLength.toNat
      let raised := fun (p : Port) (code : Nat) (r : Ring) =>
        if p = slotOwner i ∧ reserves code then { r with reserved := r.reserved + scan } else r
      ∃ t : State, exec .grant s = .next t ∧
        t.slot i = { x with state := .running, passedOver := 0,
                            held := if reserves 1 ∨ reserves 2 then x.held + scan else x.held } ∧
        (∀ j, j ≠ i → (s.slot j).state = .due → s.Preferred j i → t.slot j = { s.slot j with state := .stalled }) ∧
        (∀ j, j ≠ i → (s.slot j).state = .due → ¬s.Preferred j i → t.slot j =
          { s.slot j with passedOver := if (s.slot j).passedOver < 8 then (s.slot j).passedOver + 1 else 8 }) ∧
        (∀ j, (s.slot j).state ≠ .due → t.slot j = s.slot j) ∧
        (∀ p, t.port p = { s.port p with ring0 := raised p 1 (s.port p).ring0, ring1 := raised p 2 (s.port p).ring1
                                         flags := (t.port p).flags } ∧
          ∀ e, (t.port p).flag e = true ↔ (s.port p).flag e = true ∨
            e = .stalled ∧ ∃ j, (s.slot j).state = .due ∧ s.Preferred j i ∧ slotOwner j = p) ∧
        t.arbiter.lastGranted = slotOwner i ∧ t.arbiter.stampCounter = s.arbiter.stampCounter ∧
        t.arbiter.stampOrder.Sublist s.arbiter.stampOrder ∧
        (∀ w, w ∈ t.arbiter.stampOrder ↔ w ∈ s.arbiter.stampOrder ∧
          ∃ j, ((t.slot j).state = .due ∨ (t.slot j).state = .stalled) ∧ (t.slot j).dueStamp = w) ∧
        t.seq = { s.seq with
          active := some ⟨i, index⟩, selected := some first, selectedChannel := some first.channel
          settledTime := if s.seq.selectedChannel = some first.channel then s.seq.settledTime
            else s.now + 3 + 4 * first.extension } ∧
        t = { s with ports := t.ports, slots := t.slots, arbiter := t.arbiter, seq := t.seq }

/-- START_CONVERSION: the readout of the buffer, then the selected record converts, the done timeout stands 20 µs ahead,
and the register is refilled. The report of a sweep that the readout ends is taken if the sweep was cut, and waits behind
those that wait already if it completed (SweepEnds); the Request Table takes those at once, or later as events of their own,
so that the grant that the START allows may come first (notes/assumptions/4.md says how a sender spells either). -/
def Obligations.StartConversion : Prop :=
  ∀ (r : SweepRecord) (s : State), s.seq.selected = some r → s.seq.converting = none → s.seq.settledTime ≤ s.now →
    let read := s.readout none
    let begun := { read.1 with seq := { read.1.seq with
      selected := none, converting := some ⟨.sweep r, BitVec.ofNat 32 s.now⟩, doneTimeout := some (s.now + 20) } }
    let started := if s.seq.active = some ⟨r.slot, r.sweepIndex⟩ then begun.refill r else begun
    let handed := started.handReport read.2
    exec (.startConversion .later) s = .next handed ∧
      exec (.startConversion .atOnce) s = .next (handed.takeReports fun _ => true)

/-- A refill at a START of the active sweep's record `r`: the next repetition, else the next entry, else none; and a
record of another channel sets the multiplexer and its settle, one of the same channel does not. -/
def Obligations.RefillAndSettle : Prop :=
  (∀ (r : SweepRecord) (s : State),
    let x := s.slot r.slot
    let e := x.fields.entryAt (r.entry + 1)
    let next : SweepRecord :=
      ⟨r.slot, r.sweepIndex, r.entry + 1, 0, e.channel.setWidth 5, e.extension.toNat, e.count.toNat⟩
    let last := r.entry + 1 = x.fields.scanLength.toNat ∨ x.truncatedAt = some r.entry
    (r.repetition + 1 < r.count →
      s.refill r = { s with seq := s.seq.select s.now { r with repetition := r.repetition + 1 } }) ∧
    (r.count ≤ r.repetition + 1 → r.entry + 1 < x.fields.scanLength.toNat → ¬last →
      s.refill r = { s with seq := s.seq.select s.now next }) ∧
    (r.count ≤ r.repetition + 1 → last → s.refill r = { s with seq := { s.seq with active := none } })) ∧
  ∀ (now : Nat) (r : SweepRecord) (q : Sequencer),
    (q.selectedChannel = some r.channel → q.select now r = { q with selected := some r }) ∧
    (q.selectedChannel ≠ some r.channel → q.select now r =
      { q with selected := some r, selectedChannel := some r.channel, settledTime := now + 3 + 4 * r.extension })

/-- The readout of a sweep record: repetition 0 begins the accumulation, a later one adds to it, and a finished entry is a
sample with the floor of its average, reported as the end of its sweep after its last entry or at a truncation; any other
readout is discarded. -/
def Obligations.Readout : Prop :=
  ∀ (s : State), let code : Int := (s.seq.converterCode.toNat : Int) - 32768
    let extreme := s.seq.converterCode.toNat = 0 ∨ s.seq.converterCode.toNat = 65535
    ((∀ r start, s.seq.buffer ≠ some ⟨.sweep r, start⟩) →
      s.readout none = ({ s with seq := { s.seq with buffer := none } }, none)) ∧
    ∀ r start a, s.seq.buffer = some ⟨.sweep r, start⟩ →
      (r.repetition = 0 ∧ a = ⟨r.slot, r.sweepIndex, r.entry, code, 1, decide extreme, start⟩ ∨
        r.repetition ≠ 0 ∧ ∃ b, s.seq.accumulator = some b ∧ a = { b with
          sum := b.sum + code, readouts := b.readouts + 1, overRange := b.overRange || decide extreme }) →
      let x := s.slot r.slot
      let sample : Sample := ⟨r.slot, a.sweepIndex, a.entry, r.channel, a.sum / (r.count : Int), a.overRange, a.firstStart⟩
      let emptied := { s with seq := { s.seq with buffer := none, accumulator := none } }
      (a.readouts ≠ r.count →
        s.readout none = ({ s with seq := { s.seq with buffer := none, accumulator := some a } }, none)) ∧
      (a.readouts = r.count → r.entry + 1 = x.fields.scanLength.toNat →
        s.readout none = (emptied.deliver none sample, some ⟨r.slot, .completed⟩)) ∧
      (a.readouts = r.count → r.entry + 1 ≠ x.fields.scanLength.toNat → x.truncatedAt = some r.entry →
        s.readout none = (emptied.deliver none sample, some ⟨r.slot, .cut⟩)) ∧
      (a.readouts = r.count → r.entry + 1 ≠ x.fields.scanLength.toNat → x.truncatedAt ≠ some r.entry →
        s.readout none = (emptied.deliver none sample, none))

/-- CONVERTER_DONE in READY: the converting record becomes the buffer record; with the register empty a sweep's record is
flushed, and any other is STALE. In RESTARTING: the link is READY, announced at every port, and the record is STALE. A done
with nothing converting is ignored. The report of a sweep that the FLUSH's readout completes waits behind those that wait
already, and the Request Table takes them at once, or later as events of their own (notes/assumptions/4.md); that of a cut
sweep is taken with the readout (R81). -/
def Obligations.ConverterDone : Prop :=
  (∀ (raw : Word) (taking : ReportTaking) (s : State), s.seq.converting = none →
    exec (.converterDone ⟨raw, taking⟩) s = .next s) ∧
  ∀ (raw : Word) (taking : ReportTaking) (b : StartedRecord) (s : State), s.seq.converting = some b →
    let ended := { s with seq := { s.seq with
      buffer := some b, converting := none, doneTimeout := none, converterCode := raw } }
    let gives := fun t : State =>
      (taking = .later → exec (.converterDone ⟨raw, taking⟩) s = .next t) ∧
      (taking = .atOnce → exec (.converterDone ⟨raw, taking⟩) s = .next (t.takeReports fun _ => true))
    (s.seq.link ≠ .restarting → s.seq.selected ≠ none → gives ended) ∧
    (s.seq.link ≠ .restarting → s.seq.selected = none → (∃ r, b.tag = .sweep r) → gives (ended.flushStarted none)) ∧
    (s.seq.link ≠ .restarting → s.seq.selected = none → (∀ r, b.tag ≠ .sweep r) →
      gives { ended with seq := { ended.seq with buffer := some ⟨.stale, b.startTime⟩ } }) ∧
    (s.seq.link = .restarting → s.seq.selected = none → (∀ r, b.tag ≠ .sweep r) →
      gives ((({ ended with seq := { ended.seq with
        link := .ready, buffer := some ⟨.stale, b.startTime⟩ } }.raise .a .converterReady).raise .b
          .converterReady).raise .c .converterReady))

/-- DONE_TIMEOUT in READY: the link is FAULTED, no record is left, CONVERTER_FAULT is raised at every port, and each
request with a sweep in flight ends once, the one that was converting first. That the done timeout goes with its record is
the model's deduction, notes/assumptions/26.md. -/
def Obligations.ConverterFault : Prop :=
  ∀ (b : StartedRecord) (t : Nat) (s : State), s.seq.converting = some b → s.seq.doneTimeout = some t → t ≤ s.now →
    s.seq.link = .ready → ∃ ids : List SlotId, ids.Nodup ∧
      (∀ i, i ∈ ids ↔ (∃ r, b.tag = .sweep r ∧ r.slot = i) ∨
        (∃ r start, s.seq.buffer = some ⟨.sweep r, start⟩ ∧ r.slot = i) ∨
        (∃ r, s.seq.selected = some r ∧ r.slot = i) ∨ ∃ a, s.seq.active = some a ∧ a.slot = i) ∧
      (∀ r, b.tag = .sweep r → ids.head? = some r.slot) ∧
      exec .doneTimeout s = .next (ids.foldl (fun u i => u.endPosting i (some .converterFault))
        ((({ s with seq := { s.seq with link := .faulted, selected := none, converting := none, buffer := none
                                        accumulator := none, active := none, doneTimeout := none } }.raise .a
          .converterFault).raise .b .converterFault).raise .c .converterFault))

/-- RESTART_CONVERTER in each link state, and the failure of a restart at its done timeout (that a failed restart clears
the done timeout is the model's deduction, notes/assumptions/26.md). -/
def Obligations.RestartConverter : Prop :=
  ∀ (p : Port) (s : State),
    (s.OpenAtCommand p → s.seq.link = .faulted → ∃ w, exec (.restartConverter p) s = .next ({ s with seq := { s.seq with
      link := .restarting, buffer := none
      converting := some ⟨.dummy s.seq.selectedChannel, BitVec.ofNat 32 s.now⟩
      doneTimeout := some (s.now + 20) } }.answered p w 23 .accepted)) ∧
    (s.OpenAtCommand p → s.seq.link ≠ .faulted →
      ∃ w, exec (.restartConverter p) s = .next (s.answered p w 23 .already)) ∧
    ∀ b t, s.seq.link = .restarting → s.seq.converting = some b → s.seq.doneTimeout = some t → t ≤ s.now →
      exec .doneTimeout s = .next ((({ s with seq := { s.seq with link := .faulted, converting := none
                                                                  doneTimeout := none } }.raise .a
        .converterFault).raise .b .converterFault).raise .c .converterFault)

/-- CUT, by where the sweep stands: the current entry is that of its converting record, else of its buffer record. A cut
that has not been handed over changes nothing (the model's choice, notes/assumptions/3.md). A cut of a sweep that is gone or
at its last entry changes nothing else; of one not started it removes the selected record and reports the sweep as cut; of
one at an earlier entry it truncates it there, and removes a selected record of a later entry. A removal with nothing
converting makes the buffer record STALE or starts a FLUSH for a sweep's; the report of a sweep that the FLUSH completes
waits for the Request Table (34.md), and the posting of one that it ends as cut ends in the same taking (R81). The order of
that FLUSH and the report of the cut of an unstarted sweep, and whether a waiting report is taken before it, `u`, is left open
(6.md), and `k` counts free values (27.md). -/
def Obligations.CutTaken : Prop :=
  (∀ (i : SlotId) (q : Sequencer),
    (∀ r start, q.converting = some ⟨.sweep r, start⟩ → r.slot = i → q.currentEntry i = some r.entry) ∧
    ((∀ r start, q.converting = some ⟨.sweep r, start⟩ → r.slot ≠ i) →
      (∀ r start, q.buffer = some ⟨.sweep r, start⟩ → r.slot = i → q.currentEntry i = some r.entry) ∧
      ((∀ r start, q.buffer = some ⟨.sweep r, start⟩ → r.slot ≠ i) → q.currentEntry i = none))) ∧
  ∀ (i : SlotId) (s : State),
    (i ∉ s.seq.cuts → exec (.cut i) s = .next s) ∧ (i ∈ s.seq.cuts →
    let taken := { s with seq := { s.seq with cuts := s.seq.cuts.filter (· != i) } }
    let dropped := fun t : State => { t with seq := { t.seq with selected := none, active := none } }
    let idle := fun t : State => { t with seq := { t.seq with buffer := t.seq.buffer.map fun b => ⟨.stale, b.startTime⟩ } }
    let truncated := fun e : Nat => taken.updSlot i fun x => { x with truncatedAt := some e }
    let reported := fun t : State => t.takeReport (some ⟨i, .cut⟩)
    let waits := ∃ r start, s.seq.buffer = some ⟨.sweep r, start⟩
    let current := s.seq.currentEntry i
    let last := (s.slot i).fields.scanLength.toNat
    ((∀ r, s.seq.selected = some r → r.slot ≠ i) → current = none → exec (.cut i) s = .next taken) ∧
    (∀ r, s.seq.selected = some r → r.slot = i → current = none → ∃ u k, exec (.cut i) s = .next { u with freeCount := k } ∧
      (s.seq.converting ≠ none → u = reported (dropped taken)) ∧
      (s.seq.converting = none → ¬waits → u = idle (reported (dropped taken))) ∧
      (s.seq.converting = none → waits →
        u = (reported (dropped taken)).flushStarted none ∨ u = reported ((dropped taken).flushStarted none) ∨
          u = reported (((dropped taken).flushStarted none).takeReports fun _ => true))) ∧
    (∀ e, current = some e → e + 1 = last → exec (.cut i) s = .next taken) ∧
    (∀ e, current = some e → e + 1 ≠ last → (∀ r, s.seq.selected = some r → r.slot ≠ i ∨ r.entry ≤ e) →
      exec (.cut i) s = .next (truncated e)) ∧
    (∀ e r, current = some e → e + 1 ≠ last → s.seq.selected = some r → r.slot = i → e < r.entry →
      (s.seq.converting ≠ none → exec (.cut i) s = .next (dropped (truncated e))) ∧
      (s.seq.converting = none → exec (.cut i) s = .next ((dropped (truncated e)).flushStarted none))))

/-! ### Invariants -/

/-- Every step keeps the pool within its 256 entries, with every OPEN port's configuration in its ranges. -/
def Obligations.StepKeepsPool : Prop := ∀ s t : State, s.PoolHolds → step s = .next t → t.PoolHolds

/-- Every step keeps the bounded counts within their bounds. -/
def Obligations.StepKeepsCounts : Prop := ∀ s t : State, s.CountsInRange → step s = .next t → t.CountsInRange

/-- Every step keeps a CLOSED port without posting, timer and lease. -/
def Obligations.StepKeepsClosedEmpty : Prop := ∀ s t : State, s.ClosedOwnsNothing → step s = .next t → t.ClosedOwnsNothing

/-- Every step keeps fill plus reserved within the size of every queue. -/
def Obligations.StepKeepsRoom : Prop := ∀ s t : State, s.RoomHolds → step s = .next t → t.RoomHolds

/-- Every step keeps each timer's reference count the number of the requests that name it. -/
def Obligations.StepKeepsRefs : Prop := ∀ s t : State, s.RefsExact → step s = .next t → t.RefsExact

/-- Every step keeps the stamp order the list of the stamps that DUE and STALLED requests hold. -/
def Obligations.StepKeepsStamps : Prop := ∀ s t : State, s.StampsExact → step s = .next t → t.StampsExact

/-- Every step keeps the conversion chain in one of the manual's shapes. -/
def Obligations.StepKeepsChain : Prop := ∀ s t : State, s.ChainHolds → step s = .next t → t.ChainHolds

/-- Every step keeps the rings of the OPEN ports: the indexes below the size, put standing fill places after get, and
reserved what the postings that target the queue still hold. -/
def Obligations.StepKeepsRings : Prop := ∀ s t : State, s.RingsHold → step s = .next t → t.RingsHold
end

