-- ==== Sys2Proof/Laws/State.lean ====
section
/-! SUPPORT. What each named update of the state does to each part of it: the part it writes, and every part it leaves.
A later proof cites these and unfolds no record update. -/
namespace Sys2Proof.Machine

/-! ### Tables -/

@[simp] theorem tget_tset_self (v : Vector α n) (i : Fin n) (x : α) : tget (tset v i x) i = x := by
  simp [tget, tset]

theorem tget_tset_ne (v : Vector α n) {i j : Fin n} (x : α) (h : j ≠ i) : tget (tset v i x) j = tget v j := by
  have h' : ¬ i.val = j.val := fun e => h (Fin.ext e.symm)
  simp [tget, tset, h']

theorem tget_tset (v : Vector α n) (i j : Fin n) (x : α) :
    tget (tset v i x) j = if j = i then x else tget v j := by
  by_cases h : j = i
  · subst h; simp
  · simp [h, tget_tset_ne v x h]

theorem tget_tupd (v : Vector α n) (i j : Fin n) (f : α → α) :
    tget (tupd v i f) j = if j = i then f (tget v j) else tget v j := by
  unfold tupd
  rw [tget_tset]
  split
  · next h => subst h; rfl
  · rfl

@[simp] theorem tget_replicate (x : α) (i : Fin n) : tget (Vector.replicate n x) i = x := by
  simp [tget]

theorem channelIndex_inj {c d : Channel} (h : channelIndex c = channelIndex d) : c = d := by
  have h' : c.toNat = d.toNat := congrArg Fin.val h
  exact BitVec.eq_of_toNat_eq h'

/-! ### The part that an update writes -/

@[simp] theorem Ports.port_set_self (ps : Ports) (p : Port) (x : PortState) : (ps.set p x).port p = x := by
  cases p <;> rfl

theorem Ports.port_set_ne (ps : Ports) {p q : Port} (x : PortState) (h : q ≠ p) : (ps.set p x).port q = ps.port q := by
  cases p <;> cases q <;> first | rfl | exact absurd rfl h

theorem Ports.ext_port {a b : Ports} (h : ∀ p, a.port p = b.port p) : a = b := by
  have ha := h .a; have hb := h .b; have hc := h .c
  cases a; cases b
  simp only [Ports.port] at ha hb hc
  simp [ha, hb, hc]

theorem Vector.ext_tget {v w : Vector α n} (h : ∀ i, tget v i = tget w i) : v = w := by
  ext i hi
  exact h ⟨i, hi⟩

@[simp] theorem State.port_updPort_self (s : State) (p : Port) (f : PortState → PortState) :
    (s.updPort p f).port p = f (s.port p) := by
  simp [State.updPort, State.port]

theorem State.port_updPort_ne (s : State) {p q : Port} (f : PortState → PortState) (h : q ≠ p) :
    (s.updPort p f).port q = s.port q := by
  simp [State.updPort, State.port, Ports.port_set_ne _ _ h]

theorem State.port_updPort (s : State) (p q : Port) (f : PortState → PortState) :
    (s.updPort p f).port q = if q = p then f (s.port q) else s.port q := by
  by_cases h : q = p
  · subst h; simp
  · simp [h, State.port_updPort_ne s f h]

theorem State.port_raise (s : State) (p q : Port) (e : Event) :
    (s.raise p e).port q = if q = p then (s.port q).raise e else s.port q := State.port_updPort s p q _

theorem State.port_raiseAll (s : State) (e : Event) (q : Port) : (s.raiseAll e).port q = (s.port q).raise e := by
  cases q <;> simp [State.raiseAll, State.port_raise]

theorem State.slot_updSlot (s : State) (i j : SlotId) (f : Slot → Slot) :
    (s.updSlot i f).slot j = if j = i then f (s.slot j) else s.slot j := tget_tupd s.slots i j f

@[simp] theorem State.slot_updSlot_self (s : State) (i : SlotId) (f : Slot → Slot) :
    (s.updSlot i f).slot i = f (s.slot i) := by simp [State.slot_updSlot]

theorem State.slot_updSlot_ne (s : State) {i j : SlotId} (f : Slot → Slot) (h : j ≠ i) :
    (s.updSlot i f).slot j = s.slot j := by simp [State.slot_updSlot, h]

theorem State.slot_updCounters (s : State) (i j : SlotId) (f : Counters → Counters) :
    (s.updCounters i f).slot j =
      if j = i then { s.slot j with counters := f (s.slot j).counters } else s.slot j := State.slot_updSlot s i j _

theorem State.timer_updTimer (s : State) (n m : Fin 4) (f : Timer → Timer) :
    (s.updTimer n f).timer m = if m = n then f (s.timer m) else s.timer m := tget_tupd s.timers n m f

@[simp] theorem State.timer_updTimer_self (s : State) (n : Fin 4) (f : Timer → Timer) :
    (s.updTimer n f).timer n = f (s.timer n) := by simp [State.timer_updTimer]

theorem State.line_updLine (s : State) (n m : Fin 4) (f : Line → Line) :
    (s.updLine n f).line m = if m = n then f (s.line m) else s.line m := tget_tupd s.lines n m f

@[simp] theorem State.line_updLine_self (s : State) (n : Fin 4) (f : Line → Line) :
    (s.updLine n f).line n = f (s.line n) := by simp [State.line_updLine]

theorem State.calEntry_updCalEntry (s : State) (c d : Channel) (f : CalEntry → CalEntry) :
    (s.updCalEntry c f).calEntry d = if d = c then f (s.calEntry d) else s.calEntry d := by
  show tget (tupd s.cal.table (channelIndex c) f) (channelIndex d) = _
  rw [tget_tupd]
  by_cases h : d = c
  · subst h; simp [State.calEntry]
  · have h' : ¬ channelIndex d = channelIndex c := fun e => h (channelIndex_inj e)
    simp [h, h', State.calEntry]

@[simp] theorem State.calEntry_updCalEntry_self (s : State) (c : Channel) (f : CalEntry → CalEntry) :
    (s.updCalEntry c f).calEntry c = f (s.calEntry c) := by simp [State.calEntry_updCalEntry]

theorem State.fieldRecord_setFieldRecord (s : State) (c d : Channel) (r : StoreRecord) :
    (s.setFieldRecord c r).fieldRecord d = if d = c then r else s.fieldRecord d := by
  show tget (tset s.store.fieldRecords (channelIndex c) r) (channelIndex d) = _
  rw [tget_tset]
  by_cases h : d = c
  · subst h; simp
  · have h' : ¬ channelIndex d = channelIndex c := fun e => h (channelIndex_inj e)
    simp [h, h', State.fieldRecord]

theorem State.factoryRecord_setFactoryRecord (s : State) (c d : Channel) (r : StoreRecord) :
    (s.setFactoryRecord c r).factoryRecord d = if d = c then r else s.factoryRecord d := by
  show tget (tset s.store.factoryRecords (channelIndex c) r) (channelIndex d) = _
  rw [tget_tset]
  by_cases h : d = c
  · subst h; simp
  · have h' : ¬ channelIndex d = channelIndex c := fun e => h (channelIndex_inj e)
    simp [h, h', State.factoryRecord]

@[simp] theorem State.factoryRecord_setFieldRecord (s : State) (c d : Channel) (r : StoreRecord) :
    (s.setFieldRecord c r).factoryRecord d = s.factoryRecord d := rfl

@[simp] theorem State.fieldRecord_setFactoryRecord (s : State) (c d : Channel) (r : StoreRecord) :
    (s.setFactoryRecord c r).fieldRecord d = s.fieldRecord d := rfl

@[simp] theorem State.storeOp_setFieldRecord (s : State) (c : Channel) (r : StoreRecord) :
    (s.setFieldRecord c r).store.op = s.store.op := rfl

@[simp] theorem State.storeOp_setFactoryRecord (s : State) (c : Channel) (r : StoreRecord) :
    (s.setFactoryRecord c r).store.op = s.store.op := rfl

@[simp] theorem State.storeEnd_setFieldRecord (s : State) (c : Channel) (r : StoreRecord) :
    (s.setFieldRecord c r).store.opEnd = s.store.opEnd := rfl

@[simp] theorem State.storeEnd_setFactoryRecord (s : State) (c : Channel) (r : StoreRecord) :
    (s.setFactoryRecord c r).store.opEnd = s.store.opEnd := rfl

@[simp] theorem State.fieldRecord_startStore (s : State) (op : StoreOp) (t : Nat) (c : Channel) :
    (s.startStore op t).fieldRecord c = s.fieldRecord c := rfl

@[simp] theorem State.factoryRecord_startStore (s : State) (op : StoreOp) (t : Nat) (c : Channel) :
    (s.startStore op t).factoryRecord c = s.factoryRecord c := rfl

@[simp] theorem State.storeOp_startStore (s : State) (op : StoreOp) (t : Nat) : (s.startStore op t).store.op = op := rfl

@[simp] theorem State.storeEnd_startStore (s : State) (op : StoreOp) (t : Nat) :
    (s.startStore op t).store.opEnd = s.now + t := rfl

@[simp] theorem State.fieldRecord_storeIdle (s : State) (c : Channel) : s.storeIdle.fieldRecord c = s.fieldRecord c := rfl

@[simp] theorem State.factoryRecord_storeIdle (s : State) (c : Channel) :
    s.storeIdle.factoryRecord c = s.factoryRecord c := rfl

@[simp] theorem State.storeOp_storeIdle (s : State) : s.storeIdle.store.op = .idle := rfl

@[simp] theorem State.seq_updSeq (s : State) (f : Sequencer → Sequencer) : (s.updSeq f).seq = f s.seq := rfl

@[simp] theorem State.seq_forgetCut (s : State) (i : SlotId) :
    (s.forgetCut i).seq = { s.seq with cuts := s.seq.cuts.filter (· != i) } := rfl

@[simp] theorem State.handReport_none (s : State) : s.handReport none = s := rfl

/-- The report of a completed sweep waits (notes/assumptions/4.md). -/
@[simp] theorem State.handReport_completed (s : State) (i : SlotId) :
    s.handReport (some ⟨i, .completed⟩) = { s with seq := { s.seq with reports := s.seq.reports ++ [i] } } := rfl

/-- The report of a cut sweep is taken as it is made (R81). -/
@[simp] theorem State.handReport_cut (s : State) (i : SlotId) : s.handReport (some ⟨i, .cut⟩) = s.cutSweep i := rfl

@[simp] theorem State.seq_handCut (s : State) (i : SlotId) :
    (s.handCut i).seq = { s.seq with cuts := s.seq.cuts ++ [i] } := rfl

@[simp] theorem State.lease_updLease (s : State) (f : Lease → Lease) : (s.updLease f).cal.lease = f s.cal.lease := rfl

@[simp] theorem State.commit_updLease (s : State) (f : Lease → Lease) : (s.updLease f).cal.commit = s.cal.commit := rfl

@[simp] theorem State.calEntry_updLease (s : State) (f : Lease → Lease) (c : Channel) :
    (s.updLease f).calEntry c = s.calEntry c := rfl

@[simp] theorem State.lease_updCalEntry (s : State) (c : Channel) (f : CalEntry → CalEntry) :
    (s.updCalEntry c f).cal.lease = s.cal.lease := rfl

@[simp] theorem State.commit_updCalEntry (s : State) (c : Channel) (f : CalEntry → CalEntry) :
    (s.updCalEntry c f).cal.commit = s.cal.commit := rfl

@[simp] theorem State.commit_fillCommit (s : State) (k : CommitKind) (c : Channel) (p : Port) :
    (s.fillCommit k c p).cal.commit = some ⟨k, c, p⟩ := rfl

@[simp] theorem State.lease_fillCommit (s : State) (k : CommitKind) (c : Channel) (p : Port) :
    (s.fillCommit k c p).cal.lease = s.cal.lease := rfl

@[simp] theorem State.calEntry_fillCommit (s : State) (k : CommitKind) (c d : Channel) (p : Port) :
    (s.fillCommit k c p).calEntry d = s.calEntry d := rfl

@[simp] theorem State.commit_emptyCommit (s : State) : s.emptyCommit.cal.commit = none := rfl

@[simp] theorem State.lease_emptyCommit (s : State) : s.emptyCommit.cal.lease = s.cal.lease := rfl

@[simp] theorem State.calEntry_emptyCommit (s : State) (c : Channel) : s.emptyCommit.calEntry c = s.calEntry c := rfl

@[simp] theorem State.freeCount_countFree (s : State) : s.countFree.freeCount = s.freeCount + 1 := rfl

/-- Two updates of one port are one. -/
theorem State.updPort_updPort (s : State) (p : Port) (f g : PortState → PortState) :
    (s.updPort p f).updPort p g = s.updPort p fun ps => g (f ps) := by
  cases p <;> rfl

/-- An update of a port is what it makes of the port as it stands. -/
theorem State.updPort_congr (s : State) (p : Port) {f g : PortState → PortState} (h : f (s.port p) = g (s.port p)) :
    s.updPort p f = s.updPort p g := by
  unfold State.updPort
  rw [h]

/-- Two states are equal when their parts are. -/
theorem State.ext_parts {s t : State} (hnow : s.now = t.now) (hreset : s.inReset = t.inReset)
    (hports : ∀ p, s.port p = t.port p) (hslots : ∀ i, s.slot i = t.slot i) (htimers : ∀ n, s.timer n = t.timer n)
    (hlines : ∀ n, s.line n = t.line n) (harb : s.arbiter = t.arbiter) (hseq : s.seq = t.seq) (hcal : s.cal = t.cal)
    (hstore : s.store = t.store) (hfree : s.freeCount = t.freeCount) (hpend : s.pending = t.pending) : s = t := by
  have h1 := Ports.ext_port hports
  have h2 := Vector.ext_tget hslots
  have h3 := Vector.ext_tget htimers
  have h4 := Vector.ext_tget hlines
  cases s; cases t
  simp_all

/-! ### The parts that an update leaves -/

@[simp] theorem State.now_updPort (s : State) (q : Port) (f : PortState → PortState) : (s.updPort q f).now = s.now := rfl
@[simp] theorem State.inReset_updPort (s : State) (q : Port) (f : PortState → PortState) : (s.updPort q f).inReset = s.inReset := rfl
@[simp] theorem State.slots_updPort (s : State) (q : Port) (f : PortState → PortState) : (s.updPort q f).slots = s.slots := rfl
@[simp] theorem State.timers_updPort (s : State) (q : Port) (f : PortState → PortState) : (s.updPort q f).timers = s.timers := rfl
@[simp] theorem State.lines_updPort (s : State) (q : Port) (f : PortState → PortState) : (s.updPort q f).lines = s.lines := rfl
@[simp] theorem State.arbiter_updPort (s : State) (q : Port) (f : PortState → PortState) : (s.updPort q f).arbiter = s.arbiter := rfl
@[simp] theorem State.seq_updPort (s : State) (q : Port) (f : PortState → PortState) : (s.updPort q f).seq = s.seq := rfl
@[simp] theorem State.cal_updPort (s : State) (q : Port) (f : PortState → PortState) : (s.updPort q f).cal = s.cal := rfl
@[simp] theorem State.store_updPort (s : State) (q : Port) (f : PortState → PortState) : (s.updPort q f).store = s.store := rfl
@[simp] theorem State.freeCount_updPort (s : State) (q : Port) (f : PortState → PortState) : (s.updPort q f).freeCount = s.freeCount := rfl
@[simp] theorem State.pending_updPort (s : State) (q : Port) (f : PortState → PortState) : (s.updPort q f).pending = s.pending := rfl
@[simp] theorem State.slot_updPort (s : State) (q : Port) (f : PortState → PortState) (j : SlotId) :
    (s.updPort q f).slot j = s.slot j := rfl
@[simp] theorem State.timer_updPort (s : State) (q : Port) (f : PortState → PortState) (m : Fin 4) :
    (s.updPort q f).timer m = s.timer m := rfl
@[simp] theorem State.line_updPort (s : State) (q : Port) (f : PortState → PortState) (m : Fin 4) :
    (s.updPort q f).line m = s.line m := rfl
@[simp] theorem State.calEntry_updPort (s : State) (q : Port) (f : PortState → PortState) (c : Channel) :
    (s.updPort q f).calEntry c = s.calEntry c := rfl
@[simp] theorem State.fieldRecord_updPort (s : State) (q : Port) (f : PortState → PortState) (c : Channel) :
    (s.updPort q f).fieldRecord c = s.fieldRecord c := rfl
@[simp] theorem State.factoryRecord_updPort (s : State) (q : Port) (f : PortState → PortState) (c : Channel) :
    (s.updPort q f).factoryRecord c = s.factoryRecord c := rfl
@[simp] theorem State.now_raise (s : State) (q : Port) (e : Event) : (s.raise q e).now = s.now := rfl
@[simp] theorem State.inReset_raise (s : State) (q : Port) (e : Event) : (s.raise q e).inReset = s.inReset := rfl
@[simp] theorem State.slots_raise (s : State) (q : Port) (e : Event) : (s.raise q e).slots = s.slots := rfl
@[simp] theorem State.timers_raise (s : State) (q : Port) (e : Event) : (s.raise q e).timers = s.timers := rfl
@[simp] theorem State.lines_raise (s : State) (q : Port) (e : Event) : (s.raise q e).lines = s.lines := rfl
@[simp] theorem State.arbiter_raise (s : State) (q : Port) (e : Event) : (s.raise q e).arbiter = s.arbiter := rfl
@[simp] theorem State.seq_raise (s : State) (q : Port) (e : Event) : (s.raise q e).seq = s.seq := rfl
@[simp] theorem State.cal_raise (s : State) (q : Port) (e : Event) : (s.raise q e).cal = s.cal := rfl
@[simp] theorem State.store_raise (s : State) (q : Port) (e : Event) : (s.raise q e).store = s.store := rfl
@[simp] theorem State.freeCount_raise (s : State) (q : Port) (e : Event) : (s.raise q e).freeCount = s.freeCount := rfl
@[simp] theorem State.pending_raise (s : State) (q : Port) (e : Event) : (s.raise q e).pending = s.pending := rfl
@[simp] theorem State.slot_raise (s : State) (q : Port) (e : Event) (j : SlotId) :
    (s.raise q e).slot j = s.slot j := rfl
@[simp] theorem State.timer_raise (s : State) (q : Port) (e : Event) (m : Fin 4) :
    (s.raise q e).timer m = s.timer m := rfl
@[simp] theorem State.line_raise (s : State) (q : Port) (e : Event) (m : Fin 4) :
    (s.raise q e).line m = s.line m := rfl
@[simp] theorem State.calEntry_raise (s : State) (q : Port) (e : Event) (c : Channel) :
    (s.raise q e).calEntry c = s.calEntry c := rfl
@[simp] theorem State.fieldRecord_raise (s : State) (q : Port) (e : Event) (c : Channel) :
    (s.raise q e).fieldRecord c = s.fieldRecord c := rfl
@[simp] theorem State.factoryRecord_raise (s : State) (q : Port) (e : Event) (c : Channel) :
    (s.raise q e).factoryRecord c = s.factoryRecord c := rfl
@[simp] theorem State.now_raiseAll (s : State) (e : Event) : (s.raiseAll e).now = s.now := rfl
@[simp] theorem State.inReset_raiseAll (s : State) (e : Event) : (s.raiseAll e).inReset = s.inReset := rfl
@[simp] theorem State.slots_raiseAll (s : State) (e : Event) : (s.raiseAll e).slots = s.slots := rfl
@[simp] theorem State.timers_raiseAll (s : State) (e : Event) : (s.raiseAll e).timers = s.timers := rfl
@[simp] theorem State.lines_raiseAll (s : State) (e : Event) : (s.raiseAll e).lines = s.lines := rfl
@[simp] theorem State.arbiter_raiseAll (s : State) (e : Event) : (s.raiseAll e).arbiter = s.arbiter := rfl
@[simp] theorem State.seq_raiseAll (s : State) (e : Event) : (s.raiseAll e).seq = s.seq := rfl
@[simp] theorem State.cal_raiseAll (s : State) (e : Event) : (s.raiseAll e).cal = s.cal := rfl
@[simp] theorem State.store_raiseAll (s : State) (e : Event) : (s.raiseAll e).store = s.store := rfl
@[simp] theorem State.freeCount_raiseAll (s : State) (e : Event) : (s.raiseAll e).freeCount = s.freeCount := rfl
@[simp] theorem State.pending_raiseAll (s : State) (e : Event) : (s.raiseAll e).pending = s.pending := rfl
@[simp] theorem State.slot_raiseAll (s : State) (e : Event) (j : SlotId) :
    (s.raiseAll e).slot j = s.slot j := rfl
@[simp] theorem State.timer_raiseAll (s : State) (e : Event) (m : Fin 4) :
    (s.raiseAll e).timer m = s.timer m := rfl
@[simp] theorem State.line_raiseAll (s : State) (e : Event) (m : Fin 4) :
    (s.raiseAll e).line m = s.line m := rfl
@[simp] theorem State.calEntry_raiseAll (s : State) (e : Event) (c : Channel) :
    (s.raiseAll e).calEntry c = s.calEntry c := rfl
@[simp] theorem State.fieldRecord_raiseAll (s : State) (e : Event) (c : Channel) :
    (s.raiseAll e).fieldRecord c = s.fieldRecord c := rfl
@[simp] theorem State.factoryRecord_raiseAll (s : State) (e : Event) (c : Channel) :
    (s.raiseAll e).factoryRecord c = s.factoryRecord c := rfl
@[simp] theorem State.now_updSlot (s : State) (i : SlotId) (f : Slot → Slot) : (s.updSlot i f).now = s.now := rfl
@[simp] theorem State.inReset_updSlot (s : State) (i : SlotId) (f : Slot → Slot) : (s.updSlot i f).inReset = s.inReset := rfl
@[simp] theorem State.ports_updSlot (s : State) (i : SlotId) (f : Slot → Slot) : (s.updSlot i f).ports = s.ports := rfl
@[simp] theorem State.timers_updSlot (s : State) (i : SlotId) (f : Slot → Slot) : (s.updSlot i f).timers = s.timers := rfl
@[simp] theorem State.lines_updSlot (s : State) (i : SlotId) (f : Slot → Slot) : (s.updSlot i f).lines = s.lines := rfl
@[simp] theorem State.arbiter_updSlot (s : State) (i : SlotId) (f : Slot → Slot) : (s.updSlot i f).arbiter = s.arbiter := rfl
@[simp] theorem State.seq_updSlot (s : State) (i : SlotId) (f : Slot → Slot) : (s.updSlot i f).seq = s.seq := rfl
@[simp] theorem State.cal_updSlot (s : State) (i : SlotId) (f : Slot → Slot) : (s.updSlot i f).cal = s.cal := rfl
@[simp] theorem State.store_updSlot (s : State) (i : SlotId) (f : Slot → Slot) : (s.updSlot i f).store = s.store := rfl
@[simp] theorem State.freeCount_updSlot (s : State) (i : SlotId) (f : Slot → Slot) : (s.updSlot i f).freeCount = s.freeCount := rfl
@[simp] theorem State.pending_updSlot (s : State) (i : SlotId) (f : Slot → Slot) : (s.updSlot i f).pending = s.pending := rfl
@[simp] theorem State.port_updSlot (s : State) (i : SlotId) (f : Slot → Slot) (p : Port) :
    (s.updSlot i f).port p = s.port p := rfl
@[simp] theorem State.timer_updSlot (s : State) (i : SlotId) (f : Slot → Slot) (m : Fin 4) :
    (s.updSlot i f).timer m = s.timer m := rfl
@[simp] theorem State.line_updSlot (s : State) (i : SlotId) (f : Slot → Slot) (m : Fin 4) :
    (s.updSlot i f).line m = s.line m := rfl
@[simp] theorem State.calEntry_updSlot (s : State) (i : SlotId) (f : Slot → Slot) (c : Channel) :
    (s.updSlot i f).calEntry c = s.calEntry c := rfl
@[simp] theorem State.fieldRecord_updSlot (s : State) (i : SlotId) (f : Slot → Slot) (c : Channel) :
    (s.updSlot i f).fieldRecord c = s.fieldRecord c := rfl
@[simp] theorem State.factoryRecord_updSlot (s : State) (i : SlotId) (f : Slot → Slot) (c : Channel) :
    (s.updSlot i f).factoryRecord c = s.factoryRecord c := rfl
@[simp] theorem State.now_updCounters (s : State) (i : SlotId) (f : Counters → Counters) : (s.updCounters i f).now = s.now := rfl
@[simp] theorem State.inReset_updCounters (s : State) (i : SlotId) (f : Counters → Counters) : (s.updCounters i f).inReset = s.inReset := rfl
@[simp] theorem State.ports_updCounters (s : State) (i : SlotId) (f : Counters → Counters) : (s.updCounters i f).ports = s.ports := rfl
@[simp] theorem State.timers_updCounters (s : State) (i : SlotId) (f : Counters → Counters) : (s.updCounters i f).timers = s.timers := rfl
@[simp] theorem State.lines_updCounters (s : State) (i : SlotId) (f : Counters → Counters) : (s.updCounters i f).lines = s.lines := rfl
@[simp] theorem State.arbiter_updCounters (s : State) (i : SlotId) (f : Counters → Counters) : (s.updCounters i f).arbiter = s.arbiter := rfl
@[simp] theorem State.seq_updCounters (s : State) (i : SlotId) (f : Counters → Counters) : (s.updCounters i f).seq = s.seq := rfl
@[simp] theorem State.cal_updCounters (s : State) (i : SlotId) (f : Counters → Counters) : (s.updCounters i f).cal = s.cal := rfl
@[simp] theorem State.store_updCounters (s : State) (i : SlotId) (f : Counters → Counters) : (s.updCounters i f).store = s.store := rfl
@[simp] theorem State.freeCount_updCounters (s : State) (i : SlotId) (f : Counters → Counters) : (s.updCounters i f).freeCount = s.freeCount := rfl
@[simp] theorem State.pending_updCounters (s : State) (i : SlotId) (f : Counters → Counters) : (s.updCounters i f).pending = s.pending := rfl
@[simp] theorem State.port_updCounters (s : State) (i : SlotId) (f : Counters → Counters) (p : Port) :
    (s.updCounters i f).port p = s.port p := rfl
@[simp] theorem State.timer_updCounters (s : State) (i : SlotId) (f : Counters → Counters) (m : Fin 4) :
    (s.updCounters i f).timer m = s.timer m := rfl
@[simp] theorem State.line_updCounters (s : State) (i : SlotId) (f : Counters → Counters) (m : Fin 4) :
    (s.updCounters i f).line m = s.line m := rfl
@[simp] theorem State.calEntry_updCounters (s : State) (i : SlotId) (f : Counters → Counters) (c : Channel) :
    (s.updCounters i f).calEntry c = s.calEntry c := rfl
@[simp] theorem State.fieldRecord_updCounters (s : State) (i : SlotId) (f : Counters → Counters) (c : Channel) :
    (s.updCounters i f).fieldRecord c = s.fieldRecord c := rfl
@[simp] theorem State.factoryRecord_updCounters (s : State) (i : SlotId) (f : Counters → Counters) (c : Channel) :
    (s.updCounters i f).factoryRecord c = s.factoryRecord c := rfl
@[simp] theorem State.now_updTimer (s : State) (n : Fin 4) (f : Timer → Timer) : (s.updTimer n f).now = s.now := rfl
@[simp] theorem State.inReset_updTimer (s : State) (n : Fin 4) (f : Timer → Timer) : (s.updTimer n f).inReset = s.inReset := rfl
@[simp] theorem State.ports_updTimer (s : State) (n : Fin 4) (f : Timer → Timer) : (s.updTimer n f).ports = s.ports := rfl
@[simp] theorem State.slots_updTimer (s : State) (n : Fin 4) (f : Timer → Timer) : (s.updTimer n f).slots = s.slots := rfl
@[simp] theorem State.lines_updTimer (s : State) (n : Fin 4) (f : Timer → Timer) : (s.updTimer n f).lines = s.lines := rfl
@[simp] theorem State.arbiter_updTimer (s : State) (n : Fin 4) (f : Timer → Timer) : (s.updTimer n f).arbiter = s.arbiter := rfl
@[simp] theorem State.seq_updTimer (s : State) (n : Fin 4) (f : Timer → Timer) : (s.updTimer n f).seq = s.seq := rfl
@[simp] theorem State.cal_updTimer (s : State) (n : Fin 4) (f : Timer → Timer) : (s.updTimer n f).cal = s.cal := rfl
@[simp] theorem State.store_updTimer (s : State) (n : Fin 4) (f : Timer → Timer) : (s.updTimer n f).store = s.store := rfl
@[simp] theorem State.freeCount_updTimer (s : State) (n : Fin 4) (f : Timer → Timer) : (s.updTimer n f).freeCount = s.freeCount := rfl
@[simp] theorem State.pending_updTimer (s : State) (n : Fin 4) (f : Timer → Timer) : (s.updTimer n f).pending = s.pending := rfl
@[simp] theorem State.port_updTimer (s : State) (n : Fin 4) (f : Timer → Timer) (p : Port) :
    (s.updTimer n f).port p = s.port p := rfl
@[simp] theorem State.slot_updTimer (s : State) (n : Fin 4) (f : Timer → Timer) (j : SlotId) :
    (s.updTimer n f).slot j = s.slot j := rfl
@[simp] theorem State.line_updTimer (s : State) (n : Fin 4) (f : Timer → Timer) (m : Fin 4) :
    (s.updTimer n f).line m = s.line m := rfl
@[simp] theorem State.calEntry_updTimer (s : State) (n : Fin 4) (f : Timer → Timer) (c : Channel) :
    (s.updTimer n f).calEntry c = s.calEntry c := rfl
@[simp] theorem State.fieldRecord_updTimer (s : State) (n : Fin 4) (f : Timer → Timer) (c : Channel) :
    (s.updTimer n f).fieldRecord c = s.fieldRecord c := rfl
@[simp] theorem State.factoryRecord_updTimer (s : State) (n : Fin 4) (f : Timer → Timer) (c : Channel) :
    (s.updTimer n f).factoryRecord c = s.factoryRecord c := rfl
@[simp] theorem State.now_updLine (s : State) (n : Fin 4) (f : Line → Line) : (s.updLine n f).now = s.now := rfl
@[simp] theorem State.inReset_updLine (s : State) (n : Fin 4) (f : Line → Line) : (s.updLine n f).inReset = s.inReset := rfl
@[simp] theorem State.ports_updLine (s : State) (n : Fin 4) (f : Line → Line) : (s.updLine n f).ports = s.ports := rfl
@[simp] theorem State.slots_updLine (s : State) (n : Fin 4) (f : Line → Line) : (s.updLine n f).slots = s.slots := rfl
@[simp] theorem State.timers_updLine (s : State) (n : Fin 4) (f : Line → Line) : (s.updLine n f).timers = s.timers := rfl
@[simp] theorem State.arbiter_updLine (s : State) (n : Fin 4) (f : Line → Line) : (s.updLine n f).arbiter = s.arbiter := rfl
@[simp] theorem State.seq_updLine (s : State) (n : Fin 4) (f : Line → Line) : (s.updLine n f).seq = s.seq := rfl
@[simp] theorem State.cal_updLine (s : State) (n : Fin 4) (f : Line → Line) : (s.updLine n f).cal = s.cal := rfl
@[simp] theorem State.store_updLine (s : State) (n : Fin 4) (f : Line → Line) : (s.updLine n f).store = s.store := rfl
@[simp] theorem State.freeCount_updLine (s : State) (n : Fin 4) (f : Line → Line) : (s.updLine n f).freeCount = s.freeCount := rfl
@[simp] theorem State.pending_updLine (s : State) (n : Fin 4) (f : Line → Line) : (s.updLine n f).pending = s.pending := rfl
@[simp] theorem State.port_updLine (s : State) (n : Fin 4) (f : Line → Line) (p : Port) :
    (s.updLine n f).port p = s.port p := rfl
@[simp] theorem State.slot_updLine (s : State) (n : Fin 4) (f : Line → Line) (j : SlotId) :
    (s.updLine n f).slot j = s.slot j := rfl
@[simp] theorem State.timer_updLine (s : State) (n : Fin 4) (f : Line → Line) (m : Fin 4) :
    (s.updLine n f).timer m = s.timer m := rfl
@[simp] theorem State.calEntry_updLine (s : State) (n : Fin 4) (f : Line → Line) (c : Channel) :
    (s.updLine n f).calEntry c = s.calEntry c := rfl
@[simp] theorem State.fieldRecord_updLine (s : State) (n : Fin 4) (f : Line → Line) (c : Channel) :
    (s.updLine n f).fieldRecord c = s.fieldRecord c := rfl
@[simp] theorem State.factoryRecord_updLine (s : State) (n : Fin 4) (f : Line → Line) (c : Channel) :
    (s.updLine n f).factoryRecord c = s.factoryRecord c := rfl
@[simp] theorem State.now_updCalEntry (s : State) (ch : Channel) (f : CalEntry → CalEntry) : (s.updCalEntry ch f).now = s.now := rfl
@[simp] theorem State.inReset_updCalEntry (s : State) (ch : Channel) (f : CalEntry → CalEntry) : (s.updCalEntry ch f).inReset = s.inReset := rfl
@[simp] theorem State.ports_updCalEntry (s : State) (ch : Channel) (f : CalEntry → CalEntry) : (s.updCalEntry ch f).ports = s.ports := rfl
@[simp] theorem State.slots_updCalEntry (s : State) (ch : Channel) (f : CalEntry → CalEntry) : (s.updCalEntry ch f).slots = s.slots := rfl
@[simp] theorem State.timers_updCalEntry (s : State) (ch : Channel) (f : CalEntry → CalEntry) : (s.updCalEntry ch f).timers = s.timers := rfl
@[simp] theorem State.lines_updCalEntry (s : State) (ch : Channel) (f : CalEntry → CalEntry) : (s.updCalEntry ch f).lines = s.lines := rfl
@[simp] theorem State.arbiter_updCalEntry (s : State) (ch : Channel) (f : CalEntry → CalEntry) : (s.updCalEntry ch f).arbiter = s.arbiter := rfl
@[simp] theorem State.seq_updCalEntry (s : State) (ch : Channel) (f : CalEntry → CalEntry) : (s.updCalEntry ch f).seq = s.seq := rfl
@[simp] theorem State.store_updCalEntry (s : State) (ch : Channel) (f : CalEntry → CalEntry) : (s.updCalEntry ch f).store = s.store := rfl
@[simp] theorem State.freeCount_updCalEntry (s : State) (ch : Channel) (f : CalEntry → CalEntry) : (s.updCalEntry ch f).freeCount = s.freeCount := rfl
@[simp] theorem State.pending_updCalEntry (s : State) (ch : Channel) (f : CalEntry → CalEntry) : (s.updCalEntry ch f).pending = s.pending := rfl
@[simp] theorem State.port_updCalEntry (s : State) (ch : Channel) (f : CalEntry → CalEntry) (p : Port) :
    (s.updCalEntry ch f).port p = s.port p := rfl
@[simp] theorem State.slot_updCalEntry (s : State) (ch : Channel) (f : CalEntry → CalEntry) (j : SlotId) :
    (s.updCalEntry ch f).slot j = s.slot j := rfl
@[simp] theorem State.timer_updCalEntry (s : State) (ch : Channel) (f : CalEntry → CalEntry) (m : Fin 4) :
    (s.updCalEntry ch f).timer m = s.timer m := rfl
@[simp] theorem State.line_updCalEntry (s : State) (ch : Channel) (f : CalEntry → CalEntry) (m : Fin 4) :
    (s.updCalEntry ch f).line m = s.line m := rfl
@[simp] theorem State.fieldRecord_updCalEntry (s : State) (ch : Channel) (f : CalEntry → CalEntry) (c : Channel) :
    (s.updCalEntry ch f).fieldRecord c = s.fieldRecord c := rfl
@[simp] theorem State.factoryRecord_updCalEntry (s : State) (ch : Channel) (f : CalEntry → CalEntry) (c : Channel) :
    (s.updCalEntry ch f).factoryRecord c = s.factoryRecord c := rfl
@[simp] theorem State.now_setFieldRecord (s : State) (ch : Channel) (r : StoreRecord) : (s.setFieldRecord ch r).now = s.now := rfl
@[simp] theorem State.inReset_setFieldRecord (s : State) (ch : Channel) (r : StoreRecord) : (s.setFieldRecord ch r).inReset = s.inReset := rfl
@[simp] theorem State.ports_setFieldRecord (s : State) (ch : Channel) (r : StoreRecord) : (s.setFieldRecord ch r).ports = s.ports := rfl
@[simp] theorem State.slots_setFieldRecord (s : State) (ch : Channel) (r : StoreRecord) : (s.setFieldRecord ch r).slots = s.slots := rfl
@[simp] theorem State.timers_setFieldRecord (s : State) (ch : Channel) (r : StoreRecord) : (s.setFieldRecord ch r).timers = s.timers := rfl
@[simp] theorem State.lines_setFieldRecord (s : State) (ch : Channel) (r : StoreRecord) : (s.setFieldRecord ch r).lines = s.lines := rfl
@[simp] theorem State.arbiter_setFieldRecord (s : State) (ch : Channel) (r : StoreRecord) : (s.setFieldRecord ch r).arbiter = s.arbiter := rfl
@[simp] theorem State.seq_setFieldRecord (s : State) (ch : Channel) (r : StoreRecord) : (s.setFieldRecord ch r).seq = s.seq := rfl
@[simp] theorem State.cal_setFieldRecord (s : State) (ch : Channel) (r : StoreRecord) : (s.setFieldRecord ch r).cal = s.cal := rfl
@[simp] theorem State.freeCount_setFieldRecord (s : State) (ch : Channel) (r : StoreRecord) : (s.setFieldRecord ch r).freeCount = s.freeCount := rfl
@[simp] theorem State.pending_setFieldRecord (s : State) (ch : Channel) (r : StoreRecord) : (s.setFieldRecord ch r).pending = s.pending := rfl
@[simp] theorem State.port_setFieldRecord (s : State) (ch : Channel) (r : StoreRecord) (p : Port) :
    (s.setFieldRecord ch r).port p = s.port p := rfl
@[simp] theorem State.slot_setFieldRecord (s : State) (ch : Channel) (r : StoreRecord) (j : SlotId) :
    (s.setFieldRecord ch r).slot j = s.slot j := rfl
@[simp] theorem State.timer_setFieldRecord (s : State) (ch : Channel) (r : StoreRecord) (m : Fin 4) :
    (s.setFieldRecord ch r).timer m = s.timer m := rfl
@[simp] theorem State.line_setFieldRecord (s : State) (ch : Channel) (r : StoreRecord) (m : Fin 4) :
    (s.setFieldRecord ch r).line m = s.line m := rfl
@[simp] theorem State.calEntry_setFieldRecord (s : State) (ch : Channel) (r : StoreRecord) (c : Channel) :
    (s.setFieldRecord ch r).calEntry c = s.calEntry c := rfl
@[simp] theorem State.now_setFactoryRecord (s : State) (ch : Channel) (r : StoreRecord) : (s.setFactoryRecord ch r).now = s.now := rfl
@[simp] theorem State.inReset_setFactoryRecord (s : State) (ch : Channel) (r : StoreRecord) : (s.setFactoryRecord ch r).inReset = s.inReset := rfl
@[simp] theorem State.ports_setFactoryRecord (s : State) (ch : Channel) (r : StoreRecord) : (s.setFactoryRecord ch r).ports = s.ports := rfl
@[simp] theorem State.slots_setFactoryRecord (s : State) (ch : Channel) (r : StoreRecord) : (s.setFactoryRecord ch r).slots = s.slots := rfl
@[simp] theorem State.timers_setFactoryRecord (s : State) (ch : Channel) (r : StoreRecord) : (s.setFactoryRecord ch r).timers = s.timers := rfl
@[simp] theorem State.lines_setFactoryRecord (s : State) (ch : Channel) (r : StoreRecord) : (s.setFactoryRecord ch r).lines = s.lines := rfl
@[simp] theorem State.arbiter_setFactoryRecord (s : State) (ch : Channel) (r : StoreRecord) : (s.setFactoryRecord ch r).arbiter = s.arbiter := rfl
@[simp] theorem State.seq_setFactoryRecord (s : State) (ch : Channel) (r : StoreRecord) : (s.setFactoryRecord ch r).seq = s.seq := rfl
@[simp] theorem State.cal_setFactoryRecord (s : State) (ch : Channel) (r : StoreRecord) : (s.setFactoryRecord ch r).cal = s.cal := rfl
@[simp] theorem State.freeCount_setFactoryRecord (s : State) (ch : Channel) (r : StoreRecord) : (s.setFactoryRecord ch r).freeCount = s.freeCount := rfl
@[simp] theorem State.pending_setFactoryRecord (s : State) (ch : Channel) (r : StoreRecord) : (s.setFactoryRecord ch r).pending = s.pending := rfl
@[simp] theorem State.port_setFactoryRecord (s : State) (ch : Channel) (r : StoreRecord) (p : Port) :
    (s.setFactoryRecord ch r).port p = s.port p := rfl
@[simp] theorem State.slot_setFactoryRecord (s : State) (ch : Channel) (r : StoreRecord) (j : SlotId) :
    (s.setFactoryRecord ch r).slot j = s.slot j := rfl
@[simp] theorem State.timer_setFactoryRecord (s : State) (ch : Channel) (r : StoreRecord) (m : Fin 4) :
    (s.setFactoryRecord ch r).timer m = s.timer m := rfl
@[simp] theorem State.line_setFactoryRecord (s : State) (ch : Channel) (r : StoreRecord) (m : Fin 4) :
    (s.setFactoryRecord ch r).line m = s.line m := rfl
@[simp] theorem State.calEntry_setFactoryRecord (s : State) (ch : Channel) (r : StoreRecord) (c : Channel) :
    (s.setFactoryRecord ch r).calEntry c = s.calEntry c := rfl
@[simp] theorem State.now_countFree (s : State) : (s.countFree).now = s.now := rfl
@[simp] theorem State.inReset_countFree (s : State) : (s.countFree).inReset = s.inReset := rfl
@[simp] theorem State.ports_countFree (s : State) : (s.countFree).ports = s.ports := rfl
@[simp] theorem State.slots_countFree (s : State) : (s.countFree).slots = s.slots := rfl
@[simp] theorem State.timers_countFree (s : State) : (s.countFree).timers = s.timers := rfl
@[simp] theorem State.lines_countFree (s : State) : (s.countFree).lines = s.lines := rfl
@[simp] theorem State.arbiter_countFree (s : State) : (s.countFree).arbiter = s.arbiter := rfl
@[simp] theorem State.seq_countFree (s : State) : (s.countFree).seq = s.seq := rfl
@[simp] theorem State.cal_countFree (s : State) : (s.countFree).cal = s.cal := rfl
@[simp] theorem State.store_countFree (s : State) : (s.countFree).store = s.store := rfl
@[simp] theorem State.pending_countFree (s : State) : (s.countFree).pending = s.pending := rfl
@[simp] theorem State.port_countFree (s : State)  (p : Port) :
    (s.countFree).port p = s.port p := rfl
@[simp] theorem State.slot_countFree (s : State)  (j : SlotId) :
    (s.countFree).slot j = s.slot j := rfl
@[simp] theorem State.timer_countFree (s : State)  (m : Fin 4) :
    (s.countFree).timer m = s.timer m := rfl
@[simp] theorem State.line_countFree (s : State)  (m : Fin 4) :
    (s.countFree).line m = s.line m := rfl
@[simp] theorem State.calEntry_countFree (s : State)  (c : Channel) :
    (s.countFree).calEntry c = s.calEntry c := rfl
@[simp] theorem State.fieldRecord_countFree (s : State)  (c : Channel) :
    (s.countFree).fieldRecord c = s.fieldRecord c := rfl
@[simp] theorem State.factoryRecord_countFree (s : State)  (c : Channel) :
    (s.countFree).factoryRecord c = s.factoryRecord c := rfl
@[simp] theorem State.now_pruneStamps (s : State) : (s.pruneStamps).now = s.now := rfl
@[simp] theorem State.inReset_pruneStamps (s : State) : (s.pruneStamps).inReset = s.inReset := rfl
@[simp] theorem State.ports_pruneStamps (s : State) : (s.pruneStamps).ports = s.ports := rfl
@[simp] theorem State.slots_pruneStamps (s : State) : (s.pruneStamps).slots = s.slots := rfl
@[simp] theorem State.timers_pruneStamps (s : State) : (s.pruneStamps).timers = s.timers := rfl
@[simp] theorem State.lines_pruneStamps (s : State) : (s.pruneStamps).lines = s.lines := rfl
@[simp] theorem State.seq_pruneStamps (s : State) : (s.pruneStamps).seq = s.seq := rfl
@[simp] theorem State.cal_pruneStamps (s : State) : (s.pruneStamps).cal = s.cal := rfl
@[simp] theorem State.store_pruneStamps (s : State) : (s.pruneStamps).store = s.store := rfl
@[simp] theorem State.freeCount_pruneStamps (s : State) : (s.pruneStamps).freeCount = s.freeCount := rfl
@[simp] theorem State.pending_pruneStamps (s : State) : (s.pruneStamps).pending = s.pending := rfl
@[simp] theorem State.port_pruneStamps (s : State)  (p : Port) :
    (s.pruneStamps).port p = s.port p := rfl
@[simp] theorem State.slot_pruneStamps (s : State)  (j : SlotId) :
    (s.pruneStamps).slot j = s.slot j := rfl
@[simp] theorem State.timer_pruneStamps (s : State)  (m : Fin 4) :
    (s.pruneStamps).timer m = s.timer m := rfl
@[simp] theorem State.line_pruneStamps (s : State)  (m : Fin 4) :
    (s.pruneStamps).line m = s.line m := rfl
@[simp] theorem State.calEntry_pruneStamps (s : State)  (c : Channel) :
    (s.pruneStamps).calEntry c = s.calEntry c := rfl
@[simp] theorem State.fieldRecord_pruneStamps (s : State)  (c : Channel) :
    (s.pruneStamps).fieldRecord c = s.fieldRecord c := rfl
@[simp] theorem State.factoryRecord_pruneStamps (s : State)  (c : Channel) :
    (s.pruneStamps).factoryRecord c = s.factoryRecord c := rfl
@[simp] theorem State.now_forgetCut (s : State) (i : SlotId) : (s.forgetCut i).now = s.now := rfl
@[simp] theorem State.inReset_forgetCut (s : State) (i : SlotId) : (s.forgetCut i).inReset = s.inReset := rfl
@[simp] theorem State.ports_forgetCut (s : State) (i : SlotId) : (s.forgetCut i).ports = s.ports := rfl
@[simp] theorem State.slots_forgetCut (s : State) (i : SlotId) : (s.forgetCut i).slots = s.slots := rfl
@[simp] theorem State.timers_forgetCut (s : State) (i : SlotId) : (s.forgetCut i).timers = s.timers := rfl
@[simp] theorem State.lines_forgetCut (s : State) (i : SlotId) : (s.forgetCut i).lines = s.lines := rfl
@[simp] theorem State.arbiter_forgetCut (s : State) (i : SlotId) : (s.forgetCut i).arbiter = s.arbiter := rfl
@[simp] theorem State.cal_forgetCut (s : State) (i : SlotId) : (s.forgetCut i).cal = s.cal := rfl
@[simp] theorem State.store_forgetCut (s : State) (i : SlotId) : (s.forgetCut i).store = s.store := rfl
@[simp] theorem State.freeCount_forgetCut (s : State) (i : SlotId) : (s.forgetCut i).freeCount = s.freeCount := rfl
@[simp] theorem State.pending_forgetCut (s : State) (i : SlotId) : (s.forgetCut i).pending = s.pending := rfl
@[simp] theorem State.port_forgetCut (s : State) (i : SlotId) (p : Port) :
    (s.forgetCut i).port p = s.port p := rfl
@[simp] theorem State.slot_forgetCut (s : State) (i : SlotId) (j : SlotId) :
    (s.forgetCut i).slot j = s.slot j := rfl
@[simp] theorem State.timer_forgetCut (s : State) (i : SlotId) (m : Fin 4) :
    (s.forgetCut i).timer m = s.timer m := rfl
@[simp] theorem State.line_forgetCut (s : State) (i : SlotId) (m : Fin 4) :
    (s.forgetCut i).line m = s.line m := rfl
@[simp] theorem State.calEntry_forgetCut (s : State) (i : SlotId) (c : Channel) :
    (s.forgetCut i).calEntry c = s.calEntry c := rfl
@[simp] theorem State.fieldRecord_forgetCut (s : State) (i : SlotId) (c : Channel) :
    (s.forgetCut i).fieldRecord c = s.fieldRecord c := rfl
@[simp] theorem State.factoryRecord_forgetCut (s : State) (i : SlotId) (c : Channel) :
    (s.forgetCut i).factoryRecord c = s.factoryRecord c := rfl

@[simp] theorem State.now_updSeq (s : State) (f : Sequencer → Sequencer) : (s.updSeq f).now = s.now := rfl
@[simp] theorem State.inReset_updSeq (s : State) (f : Sequencer → Sequencer) : (s.updSeq f).inReset = s.inReset := rfl
@[simp] theorem State.ports_updSeq (s : State) (f : Sequencer → Sequencer) : (s.updSeq f).ports = s.ports := rfl
@[simp] theorem State.slots_updSeq (s : State) (f : Sequencer → Sequencer) : (s.updSeq f).slots = s.slots := rfl
@[simp] theorem State.timers_updSeq (s : State) (f : Sequencer → Sequencer) : (s.updSeq f).timers = s.timers := rfl
@[simp] theorem State.lines_updSeq (s : State) (f : Sequencer → Sequencer) : (s.updSeq f).lines = s.lines := rfl
@[simp] theorem State.arbiter_updSeq (s : State) (f : Sequencer → Sequencer) : (s.updSeq f).arbiter = s.arbiter := rfl
@[simp] theorem State.cal_updSeq (s : State) (f : Sequencer → Sequencer) : (s.updSeq f).cal = s.cal := rfl
@[simp] theorem State.store_updSeq (s : State) (f : Sequencer → Sequencer) : (s.updSeq f).store = s.store := rfl
@[simp] theorem State.freeCount_updSeq (s : State) (f : Sequencer → Sequencer) : (s.updSeq f).freeCount = s.freeCount := rfl
@[simp] theorem State.pending_updSeq (s : State) (f : Sequencer → Sequencer) : (s.updSeq f).pending = s.pending := rfl
@[simp] theorem State.port_updSeq (s : State) (f : Sequencer → Sequencer) (p : Port) :
    (s.updSeq f).port p = s.port p := rfl
@[simp] theorem State.slot_updSeq (s : State) (f : Sequencer → Sequencer) (j : SlotId) :
    (s.updSeq f).slot j = s.slot j := rfl
@[simp] theorem State.timer_updSeq (s : State) (f : Sequencer → Sequencer) (m : Fin 4) :
    (s.updSeq f).timer m = s.timer m := rfl
@[simp] theorem State.line_updSeq (s : State) (f : Sequencer → Sequencer) (m : Fin 4) :
    (s.updSeq f).line m = s.line m := rfl
@[simp] theorem State.calEntry_updSeq (s : State) (f : Sequencer → Sequencer) (c : Channel) :
    (s.updSeq f).calEntry c = s.calEntry c := rfl
@[simp] theorem State.fieldRecord_updSeq (s : State) (f : Sequencer → Sequencer) (c : Channel) :
    (s.updSeq f).fieldRecord c = s.fieldRecord c := rfl
@[simp] theorem State.factoryRecord_updSeq (s : State) (f : Sequencer → Sequencer) (c : Channel) :
    (s.updSeq f).factoryRecord c = s.factoryRecord c := rfl
@[simp] theorem State.now_handCut (s : State) (i : SlotId) : (s.handCut i).now = s.now := rfl
@[simp] theorem State.inReset_handCut (s : State) (i : SlotId) : (s.handCut i).inReset = s.inReset := rfl
@[simp] theorem State.ports_handCut (s : State) (i : SlotId) : (s.handCut i).ports = s.ports := rfl
@[simp] theorem State.slots_handCut (s : State) (i : SlotId) : (s.handCut i).slots = s.slots := rfl
@[simp] theorem State.timers_handCut (s : State) (i : SlotId) : (s.handCut i).timers = s.timers := rfl
@[simp] theorem State.lines_handCut (s : State) (i : SlotId) : (s.handCut i).lines = s.lines := rfl
@[simp] theorem State.arbiter_handCut (s : State) (i : SlotId) : (s.handCut i).arbiter = s.arbiter := rfl
@[simp] theorem State.cal_handCut (s : State) (i : SlotId) : (s.handCut i).cal = s.cal := rfl
@[simp] theorem State.store_handCut (s : State) (i : SlotId) : (s.handCut i).store = s.store := rfl
@[simp] theorem State.freeCount_handCut (s : State) (i : SlotId) : (s.handCut i).freeCount = s.freeCount := rfl
@[simp] theorem State.pending_handCut (s : State) (i : SlotId) : (s.handCut i).pending = s.pending := rfl
@[simp] theorem State.port_handCut (s : State) (i : SlotId) (p : Port) :
    (s.handCut i).port p = s.port p := rfl
@[simp] theorem State.slot_handCut (s : State) (i : SlotId) (j : SlotId) :
    (s.handCut i).slot j = s.slot j := rfl
@[simp] theorem State.timer_handCut (s : State) (i : SlotId) (m : Fin 4) :
    (s.handCut i).timer m = s.timer m := rfl
@[simp] theorem State.line_handCut (s : State) (i : SlotId) (m : Fin 4) :
    (s.handCut i).line m = s.line m := rfl
@[simp] theorem State.calEntry_handCut (s : State) (i : SlotId) (c : Channel) :
    (s.handCut i).calEntry c = s.calEntry c := rfl
@[simp] theorem State.fieldRecord_handCut (s : State) (i : SlotId) (c : Channel) :
    (s.handCut i).fieldRecord c = s.fieldRecord c := rfl
@[simp] theorem State.factoryRecord_handCut (s : State) (i : SlotId) (c : Channel) :
    (s.handCut i).factoryRecord c = s.factoryRecord c := rfl
@[simp] theorem State.now_updLease (s : State) (f : Lease → Lease) : (s.updLease f).now = s.now := rfl
@[simp] theorem State.inReset_updLease (s : State) (f : Lease → Lease) : (s.updLease f).inReset = s.inReset := rfl
@[simp] theorem State.ports_updLease (s : State) (f : Lease → Lease) : (s.updLease f).ports = s.ports := rfl
@[simp] theorem State.slots_updLease (s : State) (f : Lease → Lease) : (s.updLease f).slots = s.slots := rfl
@[simp] theorem State.timers_updLease (s : State) (f : Lease → Lease) : (s.updLease f).timers = s.timers := rfl
@[simp] theorem State.lines_updLease (s : State) (f : Lease → Lease) : (s.updLease f).lines = s.lines := rfl
@[simp] theorem State.arbiter_updLease (s : State) (f : Lease → Lease) : (s.updLease f).arbiter = s.arbiter := rfl
@[simp] theorem State.seq_updLease (s : State) (f : Lease → Lease) : (s.updLease f).seq = s.seq := rfl
@[simp] theorem State.store_updLease (s : State) (f : Lease → Lease) : (s.updLease f).store = s.store := rfl
@[simp] theorem State.freeCount_updLease (s : State) (f : Lease → Lease) : (s.updLease f).freeCount = s.freeCount := rfl
@[simp] theorem State.pending_updLease (s : State) (f : Lease → Lease) : (s.updLease f).pending = s.pending := rfl
@[simp] theorem State.port_updLease (s : State) (f : Lease → Lease) (p : Port) :
    (s.updLease f).port p = s.port p := rfl
@[simp] theorem State.slot_updLease (s : State) (f : Lease → Lease) (j : SlotId) :
    (s.updLease f).slot j = s.slot j := rfl
@[simp] theorem State.timer_updLease (s : State) (f : Lease → Lease) (m : Fin 4) :
    (s.updLease f).timer m = s.timer m := rfl
@[simp] theorem State.line_updLease (s : State) (f : Lease → Lease) (m : Fin 4) :
    (s.updLease f).line m = s.line m := rfl
@[simp] theorem State.fieldRecord_updLease (s : State) (f : Lease → Lease) (c : Channel) :
    (s.updLease f).fieldRecord c = s.fieldRecord c := rfl
@[simp] theorem State.factoryRecord_updLease (s : State) (f : Lease → Lease) (c : Channel) :
    (s.updLease f).factoryRecord c = s.factoryRecord c := rfl
@[simp] theorem State.now_fillCommit (s : State) (k : CommitKind) (ch : Channel) (p₀ : Port) : (s.fillCommit k ch p₀).now = s.now := rfl
@[simp] theorem State.inReset_fillCommit (s : State) (k : CommitKind) (ch : Channel) (p₀ : Port) : (s.fillCommit k ch p₀).inReset = s.inReset := rfl
@[simp] theorem State.ports_fillCommit (s : State) (k : CommitKind) (ch : Channel) (p₀ : Port) : (s.fillCommit k ch p₀).ports = s.ports := rfl
@[simp] theorem State.slots_fillCommit (s : State) (k : CommitKind) (ch : Channel) (p₀ : Port) : (s.fillCommit k ch p₀).slots = s.slots := rfl
@[simp] theorem State.timers_fillCommit (s : State) (k : CommitKind) (ch : Channel) (p₀ : Port) : (s.fillCommit k ch p₀).timers = s.timers := rfl
@[simp] theorem State.lines_fillCommit (s : State) (k : CommitKind) (ch : Channel) (p₀ : Port) : (s.fillCommit k ch p₀).lines = s.lines := rfl
@[simp] theorem State.arbiter_fillCommit (s : State) (k : CommitKind) (ch : Channel) (p₀ : Port) : (s.fillCommit k ch p₀).arbiter = s.arbiter := rfl
@[simp] theorem State.seq_fillCommit (s : State) (k : CommitKind) (ch : Channel) (p₀ : Port) : (s.fillCommit k ch p₀).seq = s.seq := rfl
@[simp] theorem State.store_fillCommit (s : State) (k : CommitKind) (ch : Channel) (p₀ : Port) : (s.fillCommit k ch p₀).store = s.store := rfl
@[simp] theorem State.freeCount_fillCommit (s : State) (k : CommitKind) (ch : Channel) (p₀ : Port) : (s.fillCommit k ch p₀).freeCount = s.freeCount := rfl
@[simp] theorem State.pending_fillCommit (s : State) (k : CommitKind) (ch : Channel) (p₀ : Port) : (s.fillCommit k ch p₀).pending = s.pending := rfl
@[simp] theorem State.port_fillCommit (s : State) (k : CommitKind) (ch : Channel) (p₀ : Port) (p : Port) :
    (s.fillCommit k ch p₀).port p = s.port p := rfl
@[simp] theorem State.slot_fillCommit (s : State) (k : CommitKind) (ch : Channel) (p₀ : Port) (j : SlotId) :
    (s.fillCommit k ch p₀).slot j = s.slot j := rfl
@[simp] theorem State.timer_fillCommit (s : State) (k : CommitKind) (ch : Channel) (p₀ : Port) (m : Fin 4) :
    (s.fillCommit k ch p₀).timer m = s.timer m := rfl
@[simp] theorem State.line_fillCommit (s : State) (k : CommitKind) (ch : Channel) (p₀ : Port) (m : Fin 4) :
    (s.fillCommit k ch p₀).line m = s.line m := rfl
@[simp] theorem State.fieldRecord_fillCommit (s : State) (k : CommitKind) (ch : Channel) (p₀ : Port) (c : Channel) :
    (s.fillCommit k ch p₀).fieldRecord c = s.fieldRecord c := rfl
@[simp] theorem State.factoryRecord_fillCommit (s : State) (k : CommitKind) (ch : Channel) (p₀ : Port) (c : Channel) :
    (s.fillCommit k ch p₀).factoryRecord c = s.factoryRecord c := rfl
@[simp] theorem State.now_emptyCommit (s : State) : (s.emptyCommit).now = s.now := rfl
@[simp] theorem State.inReset_emptyCommit (s : State) : (s.emptyCommit).inReset = s.inReset := rfl
@[simp] theorem State.ports_emptyCommit (s : State) : (s.emptyCommit).ports = s.ports := rfl
@[simp] theorem State.slots_emptyCommit (s : State) : (s.emptyCommit).slots = s.slots := rfl
@[simp] theorem State.timers_emptyCommit (s : State) : (s.emptyCommit).timers = s.timers := rfl
@[simp] theorem State.lines_emptyCommit (s : State) : (s.emptyCommit).lines = s.lines := rfl
@[simp] theorem State.arbiter_emptyCommit (s : State) : (s.emptyCommit).arbiter = s.arbiter := rfl
@[simp] theorem State.seq_emptyCommit (s : State) : (s.emptyCommit).seq = s.seq := rfl
@[simp] theorem State.store_emptyCommit (s : State) : (s.emptyCommit).store = s.store := rfl
@[simp] theorem State.freeCount_emptyCommit (s : State) : (s.emptyCommit).freeCount = s.freeCount := rfl
@[simp] theorem State.pending_emptyCommit (s : State) : (s.emptyCommit).pending = s.pending := rfl
@[simp] theorem State.port_emptyCommit (s : State)  (p : Port) :
    (s.emptyCommit).port p = s.port p := rfl
@[simp] theorem State.slot_emptyCommit (s : State)  (j : SlotId) :
    (s.emptyCommit).slot j = s.slot j := rfl
@[simp] theorem State.timer_emptyCommit (s : State)  (m : Fin 4) :
    (s.emptyCommit).timer m = s.timer m := rfl
@[simp] theorem State.line_emptyCommit (s : State)  (m : Fin 4) :
    (s.emptyCommit).line m = s.line m := rfl
@[simp] theorem State.fieldRecord_emptyCommit (s : State)  (c : Channel) :
    (s.emptyCommit).fieldRecord c = s.fieldRecord c := rfl
@[simp] theorem State.factoryRecord_emptyCommit (s : State)  (c : Channel) :
    (s.emptyCommit).factoryRecord c = s.factoryRecord c := rfl
@[simp] theorem State.now_startStore (s : State) (op : StoreOp) (time : Nat) : (s.startStore op time).now = s.now := rfl
@[simp] theorem State.inReset_startStore (s : State) (op : StoreOp) (time : Nat) : (s.startStore op time).inReset = s.inReset := rfl
@[simp] theorem State.ports_startStore (s : State) (op : StoreOp) (time : Nat) : (s.startStore op time).ports = s.ports := rfl
@[simp] theorem State.slots_startStore (s : State) (op : StoreOp) (time : Nat) : (s.startStore op time).slots = s.slots := rfl
@[simp] theorem State.timers_startStore (s : State) (op : StoreOp) (time : Nat) : (s.startStore op time).timers = s.timers := rfl
@[simp] theorem State.lines_startStore (s : State) (op : StoreOp) (time : Nat) : (s.startStore op time).lines = s.lines := rfl
@[simp] theorem State.arbiter_startStore (s : State) (op : StoreOp) (time : Nat) : (s.startStore op time).arbiter = s.arbiter := rfl
@[simp] theorem State.seq_startStore (s : State) (op : StoreOp) (time : Nat) : (s.startStore op time).seq = s.seq := rfl
@[simp] theorem State.cal_startStore (s : State) (op : StoreOp) (time : Nat) : (s.startStore op time).cal = s.cal := rfl
@[simp] theorem State.freeCount_startStore (s : State) (op : StoreOp) (time : Nat) : (s.startStore op time).freeCount = s.freeCount := rfl
@[simp] theorem State.pending_startStore (s : State) (op : StoreOp) (time : Nat) : (s.startStore op time).pending = s.pending := rfl
@[simp] theorem State.port_startStore (s : State) (op : StoreOp) (time : Nat) (p : Port) :
    (s.startStore op time).port p = s.port p := rfl
@[simp] theorem State.slot_startStore (s : State) (op : StoreOp) (time : Nat) (j : SlotId) :
    (s.startStore op time).slot j = s.slot j := rfl
@[simp] theorem State.timer_startStore (s : State) (op : StoreOp) (time : Nat) (m : Fin 4) :
    (s.startStore op time).timer m = s.timer m := rfl
@[simp] theorem State.line_startStore (s : State) (op : StoreOp) (time : Nat) (m : Fin 4) :
    (s.startStore op time).line m = s.line m := rfl
@[simp] theorem State.calEntry_startStore (s : State) (op : StoreOp) (time : Nat) (c : Channel) :
    (s.startStore op time).calEntry c = s.calEntry c := rfl
@[simp] theorem State.now_storeIdle (s : State) : (s.storeIdle).now = s.now := rfl
@[simp] theorem State.inReset_storeIdle (s : State) : (s.storeIdle).inReset = s.inReset := rfl
@[simp] theorem State.ports_storeIdle (s : State) : (s.storeIdle).ports = s.ports := rfl
@[simp] theorem State.slots_storeIdle (s : State) : (s.storeIdle).slots = s.slots := rfl
@[simp] theorem State.timers_storeIdle (s : State) : (s.storeIdle).timers = s.timers := rfl
@[simp] theorem State.lines_storeIdle (s : State) : (s.storeIdle).lines = s.lines := rfl
@[simp] theorem State.arbiter_storeIdle (s : State) : (s.storeIdle).arbiter = s.arbiter := rfl
@[simp] theorem State.seq_storeIdle (s : State) : (s.storeIdle).seq = s.seq := rfl
@[simp] theorem State.cal_storeIdle (s : State) : (s.storeIdle).cal = s.cal := rfl
@[simp] theorem State.freeCount_storeIdle (s : State) : (s.storeIdle).freeCount = s.freeCount := rfl
@[simp] theorem State.pending_storeIdle (s : State) : (s.storeIdle).pending = s.pending := rfl
@[simp] theorem State.port_storeIdle (s : State)  (p : Port) :
    (s.storeIdle).port p = s.port p := rfl
@[simp] theorem State.slot_storeIdle (s : State)  (j : SlotId) :
    (s.storeIdle).slot j = s.slot j := rfl
@[simp] theorem State.timer_storeIdle (s : State)  (m : Fin 4) :
    (s.storeIdle).timer m = s.timer m := rfl
@[simp] theorem State.line_storeIdle (s : State)  (m : Fin 4) :
    (s.storeIdle).line m = s.line m := rfl
@[simp] theorem State.calEntry_storeIdle (s : State)  (c : Channel) :
    (s.storeIdle).calEntry c = s.calEntry c := rfl

end Sys2Proof.Machine
end

