-- ==== Sys2Proof/Laws/Kept.lean ====
section
/-! SUPPORT. What the acquisition side of the part never touches: the operations of the Request Table, the arbiter, the
sequencer and the Delivery Unit keep the time, the lines, the Calibration Unit, the store, the waiting commands, every
port's setup and every slot's writable fields. One lemma for each operation. -/
namespace Sys2Proof.Machine

/-- `b` is `a` as far as a port's setup goes: its mode, configuration, words and frame. -/
structure PortState.SetupKept (a b : PortState) : Prop where
  mode : b.mode = a.mode
  config : b.config = a.config
  params : b.params = a.params
  commandWord : b.commandWord = a.commandWord
  result : b.result = a.result
  enables : b.enables = a.enables
  frame : b.frame = a.frame
  lineLow : b.lineLow = a.lineLow
  filters : b.filters = a.filters
  unmatched : b.unmatched = a.unmatched

theorem PortState.SetupKept.refl (a : PortState) : a.SetupKept a := ⟨rfl, rfl, rfl, rfl, rfl, rfl, rfl, rfl, rfl, rfl⟩

theorem PortState.SetupKept.trans {a b c : PortState} (h : a.SetupKept b) (k : b.SetupKept c) : a.SetupKept c :=
  ⟨k.mode.trans h.mode, k.config.trans h.config, k.params.trans h.params, k.commandWord.trans h.commandWord,
   k.result.trans h.result, k.enables.trans h.enables, k.frame.trans h.frame, k.lineLow.trans h.lineLow,
   k.filters.trans h.filters, k.unmatched.trans h.unmatched⟩

/-- `t` keeps of `s` all that the acquisition side never touches. -/
structure State.Kept (s t : State) : Prop where
  now : t.now = s.now
  inReset : t.inReset = s.inReset
  lines : t.lines = s.lines
  cal : t.cal = s.cal
  store : t.store = s.store
  pending : t.pending = s.pending
  setup : ∀ p, (s.port p).SetupKept (t.port p)
  fields : ∀ i, (t.slot i).fields = (s.slot i).fields

theorem State.Kept.refl (s : State) : s.Kept s := ⟨rfl, rfl, rfl, rfl, rfl, rfl, fun _ => .refl _, fun _ => rfl⟩

theorem State.Kept.trans {s t u : State} (h : s.Kept t) (k : t.Kept u) : s.Kept u :=
  ⟨k.now.trans h.now, k.inReset.trans h.inReset, k.lines.trans h.lines, k.cal.trans h.cal, k.store.trans h.store,
   k.pending.trans h.pending, fun p => (h.setup p).trans (k.setup p), fun i => (k.fields i).trans (h.fields i)⟩

theorem State.Kept.mode {s t : State} (h : s.Kept t) (p : Port) : (t.port p).mode = (s.port p).mode := (h.setup p).mode

theorem State.Kept.config {s t : State} (h : s.Kept t) (p : Port) : (t.port p).config = (s.port p).config :=
  (h.setup p).config

/-- A fold of operations that keep, keeps. -/
theorem State.Kept.foldl {f : State → α → State} (hf : ∀ (s : State) (a : α), s.Kept (f s a)) (l : List α) (s : State) :
    s.Kept (l.foldl f s) := by
  induction l generalizing s with
  | nil => exact .refl s
  | cons a l ih => exact (hf s a).trans (ih _)

/-! ### Operations on a port that keep its setup -/

theorem PortState.setupKept_raise (ps : PortState) (e : Event) : ps.SetupKept (ps.raise e) :=
  ⟨rfl, rfl, rfl, rfl, rfl, rfl, rfl, rfl, rfl, rfl⟩

theorem PortState.setupKept_raiseIf (ps : PortState) (c : Bool) (e : Event) : ps.SetupKept (ps.raiseIf c e) := by
  cases c
  · exact .refl ps
  · exact ps.setupKept_raise e

theorem PortState.setupKept_updRing (ps : PortState) (q : QueueId) (f : Ring → Ring) : ps.SetupKept (ps.updRing q f) := by
  cases q <;> exact ⟨rfl, rfl, rfl, rfl, rfl, rfl, rfl, rfl, rfl, rfl⟩

theorem PortState.setupKept_presetTimeout (ps : PortState) : ps.SetupKept ps.presetTimeout :=
  ⟨rfl, rfl, rfl, rfl, rfl, rfl, rfl, rfl, rfl, rfl⟩

theorem PortState.setupKept_sourceEmptied (ps : PortState) (q : QueueId) : ps.SetupKept (ps.sourceEmptied q) := by
  unfold PortState.sourceEmptied
  split
  · exact ps.setupKept_presetTimeout
  · exact .refl ps

theorem PortState.setupKept_startTimeout (ps : PortState) (q : QueueId) : ps.SetupKept (ps.startTimeout q) := by
  unfold PortState.startTimeout
  split
  · exact ⟨rfl, rfl, rfl, rfl, rfl, rfl, rfl, rfl, rfl, rfl⟩
  · exact .refl ps

theorem PortState.setupKept_append (ps : PortState) (q : QueueId) (b : Bool) (rec : SampleRecord) :
    ps.SetupKept (ps.append q b rec) := by
  unfold PortState.append
  dsimp only
  split
  · exact ((ps.setupKept_updRing q _).trans (PortState.setupKept_raiseIf _ _ _)).trans
      ((PortState.setupKept_raiseIf _ _ _).trans (PortState.setupKept_startTimeout _ _))
  · exact (ps.setupKept_updRing q _).trans ((PortState.setupKept_raiseIf _ _ _).trans (PortState.setupKept_raiseIf _ _ _))

theorem PortState.setupKept_overwriteOldest (ps : PortState) (q : QueueId) (rec : SampleRecord) :
    ps.SetupKept (ps.overwriteOldest q rec) :=
  (ps.setupKept_updRing q _).trans (PortState.setupKept_raise _ _)

theorem PortState.setupKept_storeUnreserved (ps : PortState) (q : QueueId) (rec : SampleRecord) :
    ps.SetupKept (ps.storeUnreserved q rec).1 := by
  unfold PortState.storeUnreserved
  split
  · exact ps.setupKept_raise _
  · split
    · split
      · exact ps.setupKept_append q _ rec
      · exact ps.setupKept_overwriteOldest q rec
    · split
      · exact ps.setupKept_append q _ rec
      · exact ps.setupKept_raise _

theorem PortState.setupKept_storeReserved (ps : PortState) (q : QueueId) (rec : SampleRecord) :
    ps.SetupKept (ps.storeReserved q rec).1 := by
  unfold PortState.storeReserved
  split
  · exact ps.setupKept_append q _ rec
  · exact .refl ps

theorem PortState.setupKept_storeSlot (ps : PortState) (n : Fin 16) (rec : SampleRecord) :
    ps.SetupKept (ps.storeSlot n rec).1 := by
  unfold PortState.storeSlot
  split
  · exact .refl ps
  · exact ⟨rfl, rfl, rfl, rfl, rfl, rfl, rfl, rfl, rfl, rfl⟩

theorem PortState.setupKept_ownStore {ps ps' : PortState} {x : Slot} {e : Nat} {rec : SampleRecord} {b : Bool}
    (h : ps.ownStore x e rec = some (ps', b)) : ps.SetupKept ps' := by
  unfold PortState.ownStore at h
  split at h
  · next q hq =>
    split at h
    · have := congrArg Prod.fst (Option.some.inj h); subst this; exact ps.setupKept_storeReserved _ rec
    · have := congrArg Prod.fst (Option.some.inj h); subst this; exact ps.setupKept_storeUnreserved _ rec
  · split at h
    · have := congrArg Prod.fst (Option.some.inj h); subst this; exact ps.setupKept_storeSlot _ rec
    · have := congrArg Prod.fst (Option.some.inj h); subst this; exact .refl ps
  · cases h
  · cases h

theorem PortState.setupKept_carryOut (ps : PortState) (a : FilterAction) (rec : SampleRecord) :
    ps.SetupKept (ps.carryOut a rec) := by
  cases a with
  | reject => exact .refl ps
  | store q => exact ps.setupKept_storeUnreserved q rec
  | storeUrgent =>
    show ps.SetupKept (if _ then _ else _)
    split
    · exact (ps.setupKept_storeUnreserved .q0 _).trans (PortState.setupKept_raise _ _)
    · exact ps.setupKept_storeUnreserved .q0 _
  | watch => exact ⟨rfl, rfl, rfl, rfl, rfl, rfl, rfl, rfl, rfl, rfl⟩
  | storeSlot n => exact ps.setupKept_storeSlot n rec

theorem PortState.setupKept_addCompletion (ps : PortState) (r : CompletionRecord) : ps.SetupKept (ps.addCompletion r) := by
  unfold PortState.addCompletion
  split
  · exact ⟨rfl, rfl, rfl, rfl, rfl, rfl, rfl, rfl, rfl, rfl⟩
  · exact ps.setupKept_raise _

/-! ### Updates of the state that keep -/

theorem State.kept_updPort (s : State) (p : Port) {f : PortState → PortState} (h : (s.port p).SetupKept (f (s.port p))) :
    s.Kept (s.updPort p f) := by
  refine ⟨rfl, rfl, rfl, rfl, rfl, rfl, fun q => ?_, fun _ => rfl⟩
  rw [State.port_updPort]
  split
  · next e => subst e; exact h
  · exact .refl _

theorem State.kept_raise (s : State) (p : Port) (e : Event) : s.Kept (s.raise p e) :=
  s.kept_updPort p (PortState.setupKept_raise _ e)

theorem State.kept_raiseAll (s : State) (e : Event) : s.Kept (s.raiseAll e) :=
  ((s.kept_raise .a e).trans (State.kept_raise _ .b e)).trans (State.kept_raise _ .c e)

theorem State.kept_updSlot (s : State) (i : SlotId) {f : Slot → Slot}
    (h : (f (s.slot i)).fields = (s.slot i).fields) : s.Kept (s.updSlot i f) := by
  refine ⟨rfl, rfl, rfl, rfl, rfl, rfl, fun _ => .refl _, fun j => ?_⟩
  rw [State.slot_updSlot]
  split
  · next e => subst e; exact h
  · rfl

theorem State.kept_updCounters (s : State) (i : SlotId) (f : Counters → Counters) : s.Kept (s.updCounters i f) :=
  s.kept_updSlot i rfl

theorem State.kept_updTimer (s : State) (n : Fin 4) (f : Timer → Timer) : s.Kept (s.updTimer n f) :=
  ⟨rfl, rfl, rfl, rfl, rfl, rfl, fun _ => .refl _, fun _ => rfl⟩

theorem State.kept_updSeq (s : State) (f : Sequencer → Sequencer) : s.Kept (s.updSeq f) :=
  ⟨rfl, rfl, rfl, rfl, rfl, rfl, fun _ => .refl _, fun _ => rfl⟩

theorem State.kept_arbiter (s : State) (a : Arbiter) : s.Kept { s with arbiter := a } :=
  ⟨rfl, rfl, rfl, rfl, rfl, rfl, fun _ => .refl _, fun _ => rfl⟩

theorem State.kept_pruneStamps (s : State) : s.Kept s.pruneStamps := s.kept_arbiter _

theorem State.kept_forgetCut (s : State) (i : SlotId) : s.Kept (s.forgetCut i) :=
  ⟨rfl, rfl, rfl, rfl, rfl, rfl, fun _ => .refl _, fun _ => rfl⟩

theorem State.kept_seq (s : State) (q : Sequencer) : s.Kept { s with seq := q } :=
  ⟨rfl, rfl, rfl, rfl, rfl, rfl, fun _ => .refl _, fun _ => rfl⟩

theorem State.kept_handCut (s : State) (i : SlotId) : s.Kept (s.handCut i) :=
  ⟨rfl, rfl, rfl, rfl, rfl, rfl, fun _ => .refl _, fun _ => rfl⟩

theorem State.kept_countFree (s : State) : s.Kept s.countFree :=
  ⟨rfl, rfl, rfl, rfl, rfl, rfl, fun _ => .refl _, fun _ => rfl⟩

/-! ### The due list -/

theorem State.kept_makeDue (s : State) (ids : List SlotId) : s.Kept (s.makeDue ids) := by
  unfold State.makeDue
  split
  · exact .refl s
  · exact (State.Kept.foldl (fun s i => s.kept_updSlot i rfl) ids s).trans (State.kept_arbiter _ _)

theorem State.kept_returnStalled (s : State) (p : Port) (q : QueueId) : s.Kept (s.returnStalled p q) := by
  refine State.Kept.foldl (fun s i => ?_) _ s
  split
  · exact s.kept_updSlot i rfl
  · exact .refl s

/-! ### The Request Table -/

theorem State.kept_dropTimerRef (s : State) (f : SlotFields) : s.Kept (s.dropTimerRef f) := by
  unfold State.dropTimerRef
  split
  · exact s.kept_updTimer _ _
  · exact .refl s

theorem State.kept_returnHeld (s : State) (p : Port) (x : Slot) (b : Bool) : s.Kept (s.returnHeld p x b) := by
  unfold State.returnHeld
  split
  · exact .refl s
  · split
    · have h := fun (g : Ring → Ring) (q : QueueId) =>
        s.kept_updPort p (f := fun ps => ps.updRing q g) (PortState.setupKept_updRing _ q g)
      dsimp only
      split
      · exact (h _ _).trans (State.kept_returnStalled _ p _)
      · exact h _ _
    · exact .refl s

theorem State.kept_endPosting (s : State) (i : SlotId) (o : Option EndOutcome) : s.Kept (s.endPosting i o) := by
  unfold State.endPosting
  dsimp only
  split
  · exact .refl s
  · have h : ∀ t : State, t.Kept ((((((t.updSlot i Slot.ended).dropTimerRef (s.slot i).fields).pruneStamps).forgetCut
        i)).returnHeld (slotOwner i) (s.slot i) o.isSome) := fun t =>
      ((((t.kept_updSlot i rfl).trans (State.kept_dropTimerRef _ _)).trans (State.kept_pruneStamps _)).trans
        (State.kept_forgetCut _ _)).trans (State.kept_returnHeld _ _ _ _)
    cases o with
    | none => exact h s
    | some o => exact (s.kept_updPort _ (PortState.setupKept_addCompletion _ _)).trans (h _)

theorem State.kept_takeTrigger (s : State) (i : SlotId) : s.Kept (s.takeTrigger i) := by
  have hm : s.Kept ((s.updCounters i Counters.missTrigger).raise (slotOwner i) .triggerMissed) :=
    (s.kept_updCounters i _).trans (State.kept_raise _ _ _)
  unfold State.takeTrigger
  dsimp only
  split
  · exact .refl s
  · exact .refl s
  · split
    · split
      · exact hm.trans (State.kept_endPosting _ _ _)
      · exact hm
    · exact s.kept_updSlot i rfl
  · split
    · split
      · exact hm.trans (State.kept_endPosting _ _ _)
      · exact hm
    · exact s.kept_updSlot i rfl
  · split
    · split
      · exact hm.trans (State.kept_updSlot _ i rfl)
      · exact hm
    · exact s.kept_updSlot i rfl
  · exact s.kept_updCounters i _

theorem State.kept_deliverTriggers (s : State) (ids : List SlotId) : s.Kept (s.deliverTriggers ids) := by
  unfold State.deliverTriggers
  exact (((s.kept_makeDue _).trans (State.Kept.foldl State.kept_takeTrigger _ _)).trans
    (State.Kept.foldl State.kept_takeTrigger _ _)).trans (State.kept_countFree _)

theorem State.kept_completeSweep (s : State) (i : SlotId) : s.Kept (s.completeSweep i) := by
  have hc : s.Kept (s.updCounters i Counters.completeSweep) := s.kept_updCounters i _
  unfold State.completeSweep
  split
  · dsimp only
    split
    · exact hc.trans (State.kept_endPosting _ _ _)
    · split
      · exact hc.trans ((State.kept_updSlot _ i rfl).trans (State.kept_makeDue _ _))
      · split
        · exact hc.trans (State.kept_makeDue _ _)
        · exact hc.trans (State.kept_updSlot _ i rfl)
  · exact hc.trans (State.kept_endPosting _ _ _)
  all_goals exact .refl s

theorem State.kept_cutSweep (s : State) (i : SlotId) : s.Kept (s.cutSweep i) := by
  unfold State.cutSweep
  split
  · exact State.kept_endPosting _ _ _
  all_goals exact .refl s

theorem State.kept_takeReport (s : State) (r : Option Report) : s.Kept (s.takeReport r) := by
  unfold State.takeReport
  split
  · exact .refl s
  · split
    · exact s.kept_completeSweep _
    · exact s.kept_cutSweep _

theorem State.kept_takeFirstReport (s : State) : s.Kept s.takeFirstReport := by
  unfold State.takeFirstReport
  split
  · exact .refl s
  · exact (s.kept_seq _).trans (State.kept_completeSweep _ _)

theorem State.kept_handReport (s : State) (r : Option Report) : s.Kept (s.handReport r) := by
  unfold State.handReport
  split
  · exact .refl s
  · split
    · exact s.kept_seq _
    · exact s.kept_cutSweep _

theorem State.kept_takeReports (s : State) (which : SlotId → Bool) : s.Kept (s.takeReports which) :=
  (s.kept_seq _).trans (State.Kept.foldl (fun s i => s.kept_completeSweep i) _ _)

theorem State.kept_takeReportsWhen (s : State) (w : ReportTaking) : s.Kept (s.takeReportsWhen w) := by
  cases w
  · exact s.kept_takeReports _
  · exact .refl s

/-! ### Delivery -/

theorem State.kept_deliverOwn (s : State) (x : Sample) (rec : SampleRecord) : s.Kept (s.deliverOwn x rec) := by
  unfold State.deliverOwn
  dsimp only
  split
  · exact .refl s
  · next ps b h =>
    refine ((s.kept_updPort _ (f := fun _ => ps) (PortState.setupKept_ownStore h)).trans
      (State.kept_updCounters _ _ _)).trans (State.kept_updSlot _ _ ?_)
    unfold Slot.consumePlace
    split <;> rfl

theorem State.kept_deliver (s : State) (c : Option Port) (x : Sample) : s.Kept (s.deliver c x) := by
  have h : s.Kept ((s.updCounters x.slot fun c => { c with entriesProduced := c.entriesProduced + 1 }).deliverOwn x
      (s.copyRecord (slotOwner x.slot) false x)) := (s.kept_updCounters _ _).trans (State.kept_deliverOwn _ _ _)
  unfold State.deliver
  dsimp only
  split
  · refine h.trans (State.Kept.foldl (fun t p => ?_) _ _)
    split
    · exact t.kept_updPort p (PortState.setupKept_carryOut _ _ _)
    · exact .refl t
  · exact h

/-! ### The pipeline -/

theorem State.kept_refill (s : State) (r : SweepRecord) : s.Kept (s.refill r) := by
  unfold State.refill
  split <;> exact s.kept_updSeq _

theorem State.kept_readSweep (s : State) (c : Option Port) (r : SweepRecord) (start : DWord) :
    s.Kept (s.readSweep c r start).1 := by
  unfold State.readSweep
  split
  · exact .refl s
  · split
    · exact (s.kept_updSeq _).trans (State.kept_deliver _ _ _)
    · dsimp only
      exact s.kept_updSeq _

theorem State.kept_readout (s : State) (c : Option Port) : s.Kept (s.readout c).1 := by
  unfold State.readout
  dsimp only
  split
  · exact (s.kept_updSeq _).trans (State.kept_readSweep _ _ _ _)
  all_goals (dsimp only; exact s.kept_updSeq _)

theorem State.kept_beginConversion (s : State) (t : RecordTag) : s.Kept (s.beginConversion t) := s.kept_updSeq _

theorem State.kept_startSelected (s : State) (r : SweepRecord) : s.Kept (s.startSelected r) := by
  have h : s.Kept (((s.readout none).1.updSeq fun q => { q with selected := none }).beginConversion (.sweep r)) :=
    ((s.kept_readout none).trans (State.kept_updSeq _ _)).trans (State.kept_beginConversion _ _)
  unfold State.startSelected
  dsimp only
  refine State.Kept.trans ?_ (State.kept_handReport _ _)
  split
  · exact h.trans (State.kept_refill _ _)
  · exact h

theorem State.kept_flush (s : State) (c : Option Port) : s.Kept (s.flush c) :=
  ((s.kept_readout c).trans (State.kept_beginConversion _ _)).trans (State.kept_handReport _ _)

theorem State.kept_flushOrIdle (s : State) (c : Option Port) : s.Kept (s.flushOrIdle c) := by
  unfold State.flushOrIdle
  split
  · exact s.kept_flush c
  · exact s.kept_updSeq _

theorem State.kept_afterRemoval (s : State) (c : Option Port) : s.Kept (s.afterRemoval c) := by
  unfold State.afterRemoval
  split
  · exact s.kept_flushOrIdle c
  · exact .refl s

theorem State.kept_cutUnstarted (s : State) (i : SlotId) : s.Kept (s.cutUnstarted i) := by
  unfold State.cutUnstarted
  dsimp only
  split
  · refine (State.Kept.trans (State.Kept.trans ?_ (State.kept_takeReport _ _)) (State.kept_countFree _)).trans
      (State.kept_countFree _)
    have h := (s.kept_updSeq Sequencer.dropSelected).trans (State.kept_afterRemoval _ none)
    split
    · exact h.trans (State.kept_takeReports _ _)
    · exact h
  · exact ((((s.kept_updSeq _).trans (State.kept_takeReport _ _)).trans (State.kept_afterRemoval _ _)).trans
      (State.kept_countFree _)).trans (State.kept_countFree _)

theorem State.kept_cutAfter (s : State) (i : SlotId) (e : Nat) : s.Kept (s.cutAfter i e) := by
  unfold State.cutAfter
  dsimp only
  split
  · exact ((s.kept_updSlot i rfl).trans (State.kept_updSeq _ _)).trans (State.kept_afterRemoval _ _)
  · exact s.kept_updSlot i rfl

theorem State.kept_takeCut (s : State) (i : SlotId) : s.Kept (s.takeCut i) := by
  unfold State.takeCut
  dsimp only
  split
  · split
    · exact (s.kept_forgetCut i).trans (State.kept_cutUnstarted _ _)
    · exact s.kept_forgetCut i
  · split
    · exact s.kept_forgetCut i
    · exact (s.kept_forgetCut i).trans (State.kept_cutAfter _ _ _)

theorem State.kept_converterFault (s : State) : s.Kept s.converterFault :=
  ((s.kept_updSeq _).trans (State.kept_raiseAll _ _)).trans
    (State.Kept.foldl (fun s i => s.kept_endPosting i _) _ _)

theorem State.kept_restartFailure (s : State) : s.Kept s.restartFailure :=
  (s.kept_updSeq _).trans (State.kept_raiseAll _ _)

theorem State.kept_endConversion (s : State) (raw : Word) : s.Kept (s.endConversion raw) := by
  have h : ∀ t : State, s.Kept t → s.Kept (let u := t.updSeq fun q =>
      { q with buffer := q.converting, converting := none, doneTimeout := none, converterCode := raw }
      if u.seq.selected.isNone then u.flushOrIdle none else u) := by
    intro t ht
    dsimp only
    split
    · exact (ht.trans (State.kept_updSeq _ _)).trans (State.kept_flushOrIdle _ _)
    · exact ht.trans (State.kept_updSeq _ _)
  refine h _ ?_
  split
  · exact (s.kept_updSeq _).trans (State.kept_raiseAll _ _)
  · exact .refl s

/-! ### The arbiter -/

theorem State.kept_stall (s : State) (i : SlotId) : s.Kept (s.stall i) :=
  (s.kept_updSlot i rfl).trans (State.kept_raise _ _ _)

theorem State.kept_chooseWinner (n : Nat) (s : State) : s.Kept (s.chooseWinner n).1 := by
  induction n generalizing s with
  | zero => exact .refl s
  | succ n ih =>
    unfold State.chooseWinner
    split
    · exact .refl s
    · split
      · exact .refl s
      · exact (s.kept_stall _).trans (ih _)

theorem State.kept_reserve (s : State) (i : SlotId) : s.Kept (s.reserve i) := by
  unfold State.reserve
  dsimp only
  split
  · split
    · exact (s.kept_updPort _ (PortState.setupKept_updRing _ _ _)).trans (State.kept_updSlot _ i rfl)
    · exact .refl s
  · exact .refl s

theorem State.kept_age (s : State) (i : SlotId) : s.Kept (s.age i) :=
  State.Kept.foldl (fun s j => s.kept_updSlot j rfl) _ s

theorem State.kept_grantTo (s : State) (i : SlotId) : s.Kept (s.grantTo i) :=
  ((((((s.kept_reserve i).trans (State.kept_age _ i)).trans (State.kept_arbiter _ _)).trans
    (State.kept_updSlot _ i rfl)).trans (State.kept_pruneStamps _)).trans (State.kept_updSeq _ _)).trans
    (State.kept_updSeq _ _)

theorem State.kept_grant (s : State) : s.Kept s.grant := by
  have h := s.kept_chooseWinner 24
  unfold State.grant
  split
  · split
    · next t i e => rw [e] at h; exact h.trans (State.kept_grantTo _ _)
    · next t e => rw [e] at h; exact h
  · exact .refl s

theorem State.kept_startConversion (s : State) (w : ReportTaking) : s.Kept (s.startConversion w) := by
  unfold State.startConversion
  split
  · split
    · exact (s.kept_startSelected _).trans (State.kept_takeReportsWhen _ w)
    · exact .refl s
  · exact .refl s

theorem State.kept_converterDone (s : State) (raw : Word) (w : ReportTaking) : s.Kept (s.converterDone raw w) := by
  unfold State.converterDone
  split
  · exact (s.kept_endConversion raw).trans (State.kept_takeReportsWhen _ w)
  · exact .refl s

theorem State.kept_doneTimeout (s : State) : s.Kept s.doneTimeout := by
  unfold State.doneTimeout
  split
  · split
    · exact s.kept_converterFault
    · exact s.kept_restartFailure
    · exact .refl s
  · exact .refl s

theorem State.kept_cut (s : State) (i : SlotId) : s.Kept (s.cut i) := by
  unfold State.cut
  split
  · exact s.kept_takeCut i
  · exact .refl s

theorem State.kept_timerExpiry (s : State) (n : Fin 4) : s.Kept (s.timerExpiry n) := by
  unfold State.timerExpiry
  split
  · exact (s.kept_updTimer n _).trans (State.kept_deliverTriggers _ _)
  · exact .refl s

end Sys2Proof.Machine
end

