-- ==== Sys2Proof/Laws/Commands.lean ====
section
/-! SUPPORT. How a word of a frame and a command are taken, and what taking one leaves alone. -/
namespace Sys2Proof.Machine

/-! ### States that differ in the words of ports only -/

/-- `b` is `a` but for what a master's words and the events touch: parameters, command word, result word, flags, enables,
watched set, frame. -/
structure PortState.CoreSame (a b : PortState) : Prop where
  mode : b.mode = a.mode
  config : b.config = a.config
  lineLow : b.lineLow = a.lineLow
  filters : b.filters = a.filters
  unmatched : b.unmatched = a.unmatched
  ring0 : b.ring0 = a.ring0
  ring1 : b.ring1 = a.ring1
  latest : b.latest = a.latest
  timeout : b.timeout = a.timeout
  completions : b.completions = a.completions

theorem PortState.CoreSame.refl (a : PortState) : a.CoreSame a := ⟨rfl, rfl, rfl, rfl, rfl, rfl, rfl, rfl, rfl, rfl⟩

theorem PortState.CoreSame.trans {a b c : PortState} (h : a.CoreSame b) (k : b.CoreSame c) : a.CoreSame c :=
  ⟨k.mode.trans h.mode, k.config.trans h.config, k.lineLow.trans h.lineLow, k.filters.trans h.filters,
   k.unmatched.trans h.unmatched, k.ring0.trans h.ring0, k.ring1.trans h.ring1, k.latest.trans h.latest,
   k.timeout.trans h.timeout, k.completions.trans h.completions⟩

/-- `t` is `s` but for the words of ports and the count of free values and the waiting commands. -/
structure State.CoreSame (s t : State) : Prop where
  now : t.now = s.now
  inReset : t.inReset = s.inReset
  slots : t.slots = s.slots
  timers : t.timers = s.timers
  lines : t.lines = s.lines
  arbiter : t.arbiter = s.arbiter
  seq : t.seq = s.seq
  cal : t.cal = s.cal
  store : t.store = s.store
  port : ∀ p, (s.port p).CoreSame (t.port p)

theorem State.CoreSame.refl (s : State) : s.CoreSame s :=
  ⟨rfl, rfl, rfl, rfl, rfl, rfl, rfl, rfl, rfl, fun _ => .refl _⟩

theorem State.CoreSame.trans {s t u : State} (h : s.CoreSame t) (k : t.CoreSame u) : s.CoreSame u :=
  ⟨k.now.trans h.now, k.inReset.trans h.inReset, k.slots.trans h.slots, k.timers.trans h.timers,
   k.lines.trans h.lines, k.arbiter.trans h.arbiter, k.seq.trans h.seq, k.cal.trans h.cal, k.store.trans h.store,
   fun p => (h.port p).trans (k.port p)⟩

theorem State.CoreSame.slot {s t : State} (h : s.CoreSame t) (i : SlotId) : t.slot i = s.slot i := by
  simp only [State.slot, h.slots]

theorem State.CoreSame.timer {s t : State} (h : s.CoreSame t) (n : Fin 4) : t.timer n = s.timer n := by
  simp only [State.timer, h.timers]

theorem State.CoreSame.calEntry {s t : State} (h : s.CoreSame t) (c : Channel) : t.calEntry c = s.calEntry c := by
  simp only [State.calEntry, h.cal]

theorem State.CoreSame.ring {s t : State} (h : s.CoreSame t) (p : Port) (q : QueueId) :
    (t.port p).ring q = (s.port p).ring q := by
  cases q
  · exact (h.port p).ring0
  · exact (h.port p).ring1

theorem State.coreSame_updPort (s : State) (p : Port) {f : PortState → PortState}
    (h : (s.port p).CoreSame (f (s.port p))) : s.CoreSame (s.updPort p f) := by
  refine ⟨rfl, rfl, rfl, rfl, rfl, rfl, rfl, rfl, rfl, fun q => ?_⟩
  rw [State.port_updPort]
  split
  · next e => subst e; exact h
  · exact .refl _

theorem State.coreSame_raise (s : State) (p : Port) (e : Event) : s.CoreSame (s.raise p e) :=
  s.coreSame_updPort p ⟨rfl, rfl, rfl, rfl, rfl, rfl, rfl, rfl, rfl, rfl⟩

theorem State.coreSame_raiseAll (s : State) (e : Event) : s.CoreSame (s.raiseAll e) :=
  ((s.coreSame_raise .a e).trans (State.coreSame_raise _ .b e)).trans (State.coreSame_raise _ .c e)

theorem State.coreSame_pending (s : State) (l : List Instr) : s.CoreSame { s with pending := l } :=
  ⟨rfl, rfl, rfl, rfl, rfl, rfl, rfl, rfl, rfl, fun _ => .refl _⟩

theorem State.coreSame_countFree (s : State) : s.CoreSame s.countFree :=
  ⟨rfl, rfl, rfl, rfl, rfl, rfl, rfl, rfl, rfl, fun _ => .refl _⟩

theorem State.coreSame_advance (s : State) (p : Port) : s.CoreSame (s.updPort p PortState.advanceFrame) :=
  s.coreSame_updPort p ⟨rfl, rfl, rfl, rfl, rfl, rfl, rfl, rfl, rfl, rfl⟩

theorem State.coreSame_answer (s : State) (p : Port) (n : BitVec 5) (r : ResultCode) :
    s.CoreSame (s.updPort p (PortState.answer n r)) :=
  s.coreSame_updPort p ⟨rfl, rfl, rfl, rfl, rfl, rfl, rfl, rfl, rfl, rfl⟩

theorem State.coreSame_answered (s : State) (p : Port) (w : Word) (n : Nat) (r : ResultCode) :
    s.CoreSame (s.answered p w n r) :=
  s.coreSame_updPort p ⟨rfl, rfl, rfl, rfl, rfl, rfl, rfl, rfl, rfl, rfl⟩

/-! ### Taking a word -/

theorem State.writeAddress_of_atWord {s : State} {p : Port} {a : BitVec 12} (h : s.AtWord p a) :
    s.writeAddress p (wordKind a) = some a := by
  obtain ⟨f, hf, hw, hi, ha⟩ := h
  subst ha
  simp [State.writeAddress, hf, hw, hi]

theorem State.writeAddress_ne {s : State} {p : Port} {a : BitVec 12} {k : WordKind} (h : s.AtWord p a)
    (hk : wordKind a ≠ k) : s.writeAddress p k = none := by
  obtain ⟨f, hf, hw, hi, ha⟩ := h
  subst ha
  simp [State.writeAddress, hf, hk]

/-- A data word of its kind is taken, and the frame's address advances. -/
theorem State.takeWord_of_atWord {s : State} {p : Port} {a : BitVec 12} {k : WordKind} (h : s.AtWord p a)
    (hk : wordKind a = k) (body : BitVec 12 → State → State) :
    s.takeWord p k body = (body a s).updPort p PortState.advanceFrame := by
  subst hk
  simp [State.takeWord, State.writeAddress_of_atWord h]

/-- The command word is written: what the command's body does, and its answer. -/
theorem State.command_of_atWord {s : State} {p : Port} (h : s.AtWord p 0x01C) (n : Nat)
    (body : State → State × ResultCode) :
    s.command p n body =
      ((body (s.updPort p fun ps => { ps with commandWord := BitVec.ofNat 16 n })).1.updPort p
        (PortState.answer (BitVec.ofNat 5 n)
          (body (s.updPort p fun ps => { ps with commandWord := BitVec.ofNat 16 n })).2)).updPort p
        PortState.advanceFrame := by
  unfold State.command State.issue
  exact State.takeWord_of_atWord (k := .command) h (by decide) _

/-- A RESET_PORT that stands in its own frame meets no reset of the line. -/
theorem State.meetsLineReset_of_atWord {s : State} {p : Port} {a : BitVec 12} (h : s.AtWord p a) :
    s.meetsLineReset p = false := by
  obtain ⟨f, hf, _⟩ := h
  simp [State.meetsLineReset, hf]

/-- The answer of a command whose body does to the state with the code in the command word what makes of it `t` with the
code in the command word. -/
theorem State.command_answered {s t : State} {p : Port} {n : Nat} {body : State → State × ResultCode} {r : ResultCode}
    (h : s.AtWord p 0x01C) (hb : body (s.withCode p (BitVec.ofNat 16 n)) = (t.withCode p (BitVec.ofNat 16 n), r)) :
    s.command p n body = t.answered p (BitVec.ofNat 16 n) n r := by
  rw [State.command_of_atWord h]
  unfold State.withCode at hb
  rw [hb]
  dsimp only
  rw [State.updPort_updPort, State.updPort_updPort]
  rfl

/-- The same for a command that needs an OPEN port. -/
theorem State.openCommand_answered {s t : State} {p : Port} {n : Nat} {body : State → State × ResultCode}
    {r : ResultCode} (h : s.OpenAtCommand p)
    (hb : body (s.withCode p (BitVec.ofNat 16 n)) = (t.withCode p (BitVec.ofNat 16 n), r)) :
    (s.command p n fun s => s.whenOpen p body) = t.answered p (BitVec.ofNat 16 n) n r := by
  refine State.command_answered h.1 ?_
  have : ((s.withCode p (BitVec.ofNat 16 n)).port p).mode = .opened := by
    simp [State.withCode, h.2]
  rw [State.whenOpen, if_pos this]
  exact hb

/-- A property that words leave alone holds after a word is taken if it holds after its body. -/
theorem State.takeWord_keeps {I : State → Prop} (hI : ∀ s t, s.CoreSame t → I s → I t) {s : State} {p : Port}
    {k : WordKind} {body : BitVec 12 → State → State} (h : I s)
    (hb : ∀ a, s.AtWord p a → wordKind a = k → I (body a s)) : I (s.takeWord p k body) := by
  unfold State.takeWord
  split
  · next a e =>
    refine hI _ _ (State.coreSame_advance _ p) (hb a ?_ ?_)
    all_goals
      unfold State.writeAddress at e
      split at e
      · next f hf =>
        split at e
        · next hc =>
          have := Option.some.inj e
          subst this
          simp only [Bool.and_eq_true, beq_iff_eq, Bool.not_eq_true'] at hc
          first
            | exact ⟨f, hf, hc.1.1, hc.1.2, rfl⟩
            | exact hc.2
        · cases e
      · cases e
  · exact h

/-- A property that words leave alone holds after a command if it holds after the command's body. -/
theorem State.command_keeps {I : State → Prop} (hI : ∀ s t, s.CoreSame t → I s → I t) {s : State} {p : Port} {n : Nat}
    {body : State → State × ResultCode} (h : I s) (hb : ∀ t, s.CoreSame t → I t → I (body t).1) :
    I (s.command p n body) := by
  unfold State.command State.issue
  refine State.takeWord_keeps hI h fun a _ _ => ?_
  have h1 : s.CoreSame (s.updPort p fun ps => { ps with commandWord := BitVec.ofNat 16 n }) :=
    s.coreSame_updPort p ⟨rfl, rfl, rfl, rfl, rfl, rfl, rfl, rfl, rfl, rfl⟩
  exact hI _ _ (State.coreSame_answer _ p _ _) (hb _ h1 (hI _ _ h1 h))

/-- The check that the port is OPEN, for a property of states. -/
theorem State.whenOpen_keeps {I : State → Prop} {s : State} {p : Port} {body : State → State × ResultCode} (h : I s)
    (hb : (s.port p).mode = .opened → I (body s).1) : I (s.whenOpen p body).1 := by
  unfold State.whenOpen
  split
  · next e => exact hb e
  · exact h

end Sys2Proof.Machine
end

