-- ==== Sys2Proof/Laws/Answers.lean ====
section
/-! SUPPORT. The operands that parameter words name, and the work that commutes with the writing of a command word: the
lemmas by which State.command_answered and State.openCommand_answered are used; and what an ignored frame leaves alone. -/
namespace Sys2Proof.Machine

/-! ### Operands -/

theorem timerNumber_of {s : State} {p : Port} {n : Fin 4} (h : s.NamesNumber p n) :
    timerNumber (s.port p).params.p0 = some n := by
  have h' : (s.port p).params.p0.toNat = n.val := h
  have := n.isLt
  simp [timerNumber, h']

theorem lineNumber_of {s : State} {p : Port} {n : Fin 4} (h : s.NamesNumber p n) :
    lineNumber (s.port p).params.p0 = some n := by
  have h' : (s.port p).params.p0.toNat = n.val := h
  have := n.isLt
  simp [lineNumber, h']

theorem channelNumber_of {s : State} {p : Port} {c : Channel} (h : s.NamesChannel p c) :
    channelNumber (s.port p).params.p0 = some c := by
  have h' : (s.port p).params.p0.toNat = c.toNat := h
  have h2 := c.isLt
  have : (s.port p).params.p0.setWidth 5 = c := by
    apply BitVec.eq_of_toNat_eq
    simp [h']
    exact h2
  have h3 : c.toNat < 32 := h2
  simp [channelNumber, h', this, h3]

theorem ownSlot_of {s : State} {p : Port} {i : SlotId} (h : s.NamesOwnSlot p i) :
    ownSlot p (s.port p).params.p0 = some i := by
  obtain ⟨h1, h2⟩ := h
  have := i.isLt
  simp [ownSlot, h1, h2]

theorem ownSlot_none {s : State} {p : Port} (h : ∀ i, ¬s.NamesOwnSlot p i) :
    ownSlot p (s.port p).params.p0 = none := by
  unfold ownSlot
  split
  · next hlt =>
    split
    · next ho => exact absurd ⟨rfl, ho⟩ (h ⟨_, hlt⟩)
    · rfl
  · rfl

theorem QueueConfig.inRange_iff (c : QueueConfig) : c.inRange = true ↔ c.Valid := by
  simp only [QueueConfig.inRange, QueueConfig.Valid, Bool.and_eq_true, decide_eq_true_eq, and_assoc]
  rfl

theorem PortConfig.inRange_iff (c : PortConfig) : c.inRange = true ↔ c.Valid := by
  simp only [PortConfig.inRange, PortConfig.Valid, Bool.and_eq_true, decide_eq_true_eq, QueueConfig.inRange_iff, and_assoc]

/-- The trigger source of a request's code. -/
theorem SlotFields.sourceOf_eq (f : SlotFields) :
    (f.source.toNat = 0 → f.sourceOf = some .immediate) ∧
    (∀ n : Fin 4, f.source.toNat = n.val + 1 → f.sourceOf = some (.timer n)) ∧
    (∀ n : Fin 4, f.source.toNat = n.val + 5 → f.sourceOf = some (.line n)) ∧
    (f.source.toNat = 9 → f.sourceOf = some .command) ∧ (9 < f.source.toNat → f.sourceOf = none) := by
  unfold SlotFields.sourceOf triggerSource
  refine ⟨fun h => by simp [h], fun n h => ?_, fun n h => ?_, fun h => by simp [h], fun h => ?_⟩
  · have := n.isLt
    simp [h]
  · have := n.isLt
    simp [h]
  · have h1 : ¬f.source.toNat = 0 := by omega
    have h2 : ¬f.source.toNat - 1 < 4 := by omega
    have h3 : ¬f.source.toNat - 5 < 4 := by omega
    have h4 : ¬f.source.toNat = 9 := by omega
    simp only [h1, h2, h3, h4, if_false, dif_neg, not_false_eq_true]

/-- A request names timer `n` exactly by its source code. -/
theorem SlotFields.sourceOf_timer (f : SlotFields) (n : Fin 4) :
    f.sourceOf = some (.timer n) ↔ f.source.toNat = n.val + 1 := by
  refine ⟨fun h => ?_, f.sourceOf_eq.2.1 n⟩
  unfold SlotFields.sourceOf triggerSource at h
  dsimp only at h
  split at h
  · cases h
  · split at h
    · cases h
      dsimp only
      omega
    · split at h
      · cases h
      · split at h <;> cases h

/-- A request names line `n` exactly by its source code. -/
theorem SlotFields.sourceOf_line (f : SlotFields) (n : Fin 4) :
    f.sourceOf = some (.line n) ↔ f.source.toNat = n.val + 5 := by
  refine ⟨fun h => ?_, f.sourceOf_eq.2.2.1 n⟩
  unfold SlotFields.sourceOf triggerSource at h
  dsimp only at h
  split at h
  · cases h
  · split at h
    · cases h
    · split at h
      · cases h
        dsimp only
        omega
      · split at h <;> cases h

/-- An IMMEDIATE request is one whose source code is 0. -/
theorem SlotFields.sourceOf_immediate (f : SlotFields) : f.sourceOf = some .immediate ↔ f.source.toNat = 0 := by
  refine ⟨fun h => ?_, f.sourceOf_eq.1⟩
  unfold SlotFields.sourceOf triggerSource at h
  dsimp only at h
  split at h
  · assumption
  · split at h
    · cases h
    · split at h
      · cases h
      · split at h <;> cases h

/-- A request paced by commands is one whose source code is 9. -/
theorem SlotFields.sourceOf_command (f : SlotFields) : f.sourceOf = some .command ↔ f.source.toNat = 9 := by
  refine ⟨fun h => ?_, f.sourceOf_eq.2.2.2.1⟩
  unfold SlotFields.sourceOf triggerSource at h
  dsimp only at h
  split at h
  · cases h
  · split at h
    · cases h
    · split at h
      · cases h
      · split at h
        · assumption
        · cases h

theorem SlotFields.namesTimer_iff (f : SlotFields) (n : Fin 4) : f.namesTimer n = true ↔ f.source.toNat = n.val + 1 := by
  simp [SlotFields.namesTimer, f.sourceOf_timer n]

theorem SlotFields.namesLine_iff (f : SlotFields) (n : Fin 4) : f.namesLine n = true ↔ f.source.toNat = n.val + 5 := by
  simp [SlotFields.namesLine, f.sourceOf_line n]

/-- The target of a request's code. -/
theorem SlotFields.targetOf_queue (f : SlotFields) (q : QueueId) :
    f.targetOf = some (.queue q) ↔ f.target.toNat = (match q with | .q0 => 1 | .q1 => 2) := by
  unfold SlotFields.targetOf
  dsimp only
  have h3 : f.target.toNat < 8 := f.target.isLt
  generalize f.target.toNat = t at h3 ⊢
  cases q <;> (repeat' split) <;> simp_all <;> omega

theorem SlotFields.policyOf_stall (f : SlotFields) : f.policyOf = some .stall ↔ f.policy.toNat = 1 := by
  unfold SlotFields.policyOf
  (repeat' split) <;> simp_all

/-! ### Updates -/

theorem State.updTimer_id (s : State) (n : Fin 4) (f : Timer → Timer) (h : f (s.timer n) = s.timer n) :
    s.updTimer n f = s := by
  apply State.ext_parts <;> first | rfl | (intro j; rfl) | skip
  intro m
  rw [State.timer_updTimer]
  split
  · next e => subst e; exact h
  · rfl

theorem State.updTimer_congr (s : State) (n : Fin 4) {f g : Timer → Timer} (h : f (s.timer n) = g (s.timer n)) :
    s.updTimer n f = s.updTimer n g := by
  unfold State.updTimer tupd
  have h' : f (tget s.timers n) = g (tget s.timers n) := h
  rw [h']

theorem State.updSlot_congr (s : State) (i : SlotId) {f g : Slot → Slot} (h : f (s.slot i) = g (s.slot i)) :
    s.updSlot i f = s.updSlot i g := by
  unfold State.updSlot tupd
  have h' : f (tget s.slots i) = g (tget s.slots i) := h
  rw [h']

theorem State.updSlot_updSlot (s : State) (i : SlotId) (f g : Slot → Slot) :
    (s.updSlot i f).updSlot i g = s.updSlot i fun x => g (f x) := by
  apply State.ext_parts <;> first | rfl | (intro j; rfl) | skip
  intro j
  simp only [State.slot_updSlot]
  split <;> simp

theorem State.updCalEntry_congr (s : State) (c : Channel) {f g : CalEntry → CalEntry}
    (h : f (s.calEntry c) = g (s.calEntry c)) : s.updCalEntry c f = s.updCalEntry c g := by
  unfold State.updCalEntry tupd
  have h' : f (tget s.cal.table (channelIndex c)) = g (tget s.cal.table (channelIndex c)) := h
  rw [h']

/-! ### The command word stands aside -/

theorem State.port_withCode (s : State) (p q : Port) (v : Word) :
    (s.withCode p v).port q = if q = p then { s.port q with commandWord := v } else s.port q := by
  unfold State.withCode
  rw [State.port_updPort]

@[simp] theorem State.params_withCode (s : State) (p q : Port) (v : Word) :
    ((s.withCode p v).port q).params = (s.port q).params := by
  rw [State.port_withCode]
  split <;> rfl

@[simp] theorem State.mode_withCode (s : State) (p q : Port) (v : Word) :
    ((s.withCode p v).port q).mode = (s.port q).mode := by
  rw [State.port_withCode]
  split <;> rfl

@[simp] theorem State.config_withCode (s : State) (p q : Port) (v : Word) :
    ((s.withCode p v).port q).config = (s.port q).config := by
  rw [State.port_withCode]
  split <;> rfl

@[simp] theorem State.room_withCode (s : State) (p r : Port) (v : Word) (q : QueueId) :
    ((s.withCode p v).port r).room q = (s.port r).room q := by
  rw [State.port_withCode]
  split
  · cases q <;> rfl
  · rfl

@[simp] theorem State.param_withCode (s : State) (p q : Port) (v : Word) (k : Fin 4) :
    (s.withCode p v).param q k = s.param q k := by
  unfold State.param
  simp

@[simp] theorem State.slot_withCode (s : State) (p : Port) (v : Word) (i : SlotId) :
    (s.withCode p v).slot i = s.slot i := rfl
@[simp] theorem State.timer_withCode (s : State) (p : Port) (v : Word) (n : Fin 4) :
    (s.withCode p v).timer n = s.timer n := rfl
@[simp] theorem State.line_withCode (s : State) (p : Port) (v : Word) (n : Fin 4) :
    (s.withCode p v).line n = s.line n := rfl
@[simp] theorem State.calEntry_withCode (s : State) (p : Port) (v : Word) (c : Channel) :
    (s.withCode p v).calEntry c = s.calEntry c := rfl
@[simp] theorem State.fieldRecord_withCode (s : State) (p : Port) (v : Word) (c : Channel) :
    (s.withCode p v).fieldRecord c = s.fieldRecord c := rfl
@[simp] theorem State.factoryRecord_withCode (s : State) (p : Port) (v : Word) (c : Channel) :
    (s.withCode p v).factoryRecord c = s.factoryRecord c := rfl
@[simp] theorem State.cal_withCode (s : State) (p : Port) (v : Word) : (s.withCode p v).cal = s.cal := rfl
@[simp] theorem State.store_withCode (s : State) (p : Port) (v : Word) : (s.withCode p v).store = s.store := rfl
@[simp] theorem State.seq_withCode (s : State) (p : Port) (v : Word) : (s.withCode p v).seq = s.seq := rfl
@[simp] theorem State.now_withCode (s : State) (p : Port) (v : Word) : (s.withCode p v).now = s.now := rfl
@[simp] theorem State.arbiter_withCode (s : State) (p : Port) (v : Word) : (s.withCode p v).arbiter = s.arbiter := rfl
@[simp] theorem State.freeCount_withCode (s : State) (p : Port) (v : Word) :
    (s.withCode p v).freeCount = s.freeCount := rfl

theorem State.param_zero (s : State) (p : Port) : s.param p 0 = (s.port p).params.p0 := rfl
theorem State.param_one (s : State) (p : Port) : s.param p 1 = (s.port p).params.p1 := rfl
theorem State.param_two (s : State) (p : Port) : s.param p 2 = (s.port p).params.p2 := rfl

theorem State.poolUse_withCode (s : State) (p : Port) (v : Word) : (s.withCode p v).poolUse = s.poolUse := by
  cases p <;> rfl

/-- An update of a port that neither reads nor writes its command word commutes with the writing of one. -/
theorem State.updPort_withCode (s : State) (p q : Port) (v : Word) (f : PortState → PortState)
    (hf : ∀ ps, f { ps with commandWord := v } = { f ps with commandWord := v }) :
    (s.withCode p v).updPort q f = (s.updPort q f).withCode p v := by
  apply State.ext_parts <;> first | rfl | (intro j; rfl) | skip
  intro r
  unfold State.withCode
  simp only [State.port_updPort]
  by_cases h1 : r = q
  · subst h1
    by_cases h2 : r = p
    · simp [h2, hf]
    · simp [h2]
  · by_cases h2 : r = p
    · subst h2
      simp [h1]
    · simp [h1, h2]

theorem State.raise_withCode (s : State) (p q : Port) (v : Word) (e : Event) :
    (s.withCode p v).raise q e = (s.raise q e).withCode p v :=
  s.updPort_withCode p q v _ fun _ => rfl

theorem State.updSlot_withCode (s : State) (p : Port) (v : Word) (i : SlotId) (f : Slot → Slot) :
    (s.withCode p v).updSlot i f = (s.updSlot i f).withCode p v := rfl

theorem State.updCounters_withCode (s : State) (p : Port) (v : Word) (i : SlotId) (f : Counters → Counters) :
    (s.withCode p v).updCounters i f = (s.updCounters i f).withCode p v := rfl

theorem State.updTimer_withCode (s : State) (p : Port) (v : Word) (n : Fin 4) (f : Timer → Timer) :
    (s.withCode p v).updTimer n f = (s.updTimer n f).withCode p v := rfl

/-- A fold of work that commutes with the writing of a command word commutes with it. -/
theorem State.foldl_withCode {f : State → α → State} {p : Port} {v : Word}
    (hf : ∀ s a, f (s.withCode p v) a = (f s a).withCode p v) (l : List α) (s : State) :
    l.foldl f (s.withCode p v) = (l.foldl f s).withCode p v := by
  induction l generalizing s with
  | nil => rfl
  | cons a l ih => rw [List.foldl_cons, List.foldl_cons, hf, ih]

theorem State.makeDue_withCode (s : State) (p : Port) (v : Word) (ids : List SlotId) :
    (s.withCode p v).makeDue ids = (s.makeDue ids).withCode p v := by
  unfold State.makeDue
  split
  · rfl
  · dsimp only
    rw [State.foldl_withCode (fun _ _ => rfl)]
    rfl

theorem State.returnStalled_withCode (s : State) (p r : Port) (v : Word) (q : QueueId) :
    (s.withCode p v).returnStalled r q = (s.returnStalled r q).withCode p v := by
  unfold State.returnStalled
  rw [State.room_withCode]
  refine State.foldl_withCode (fun s i => ?_) _ s
  rw [State.slot_withCode]
  split <;> rfl

theorem State.returnHeld_withCode (s : State) (p r : Port) (v : Word) (x : Slot) (b : Bool) :
    (s.withCode p v).returnHeld r x b = (s.returnHeld r x b).withCode p v := by
  unfold State.returnHeld
  split
  · rfl
  · split
    · next q _ =>
      dsimp only
      rw [State.updPort_withCode s p r v _ (fun ps => by cases q <;> rfl)]
      split
      · rw [State.returnStalled_withCode]
      · rfl
    · rfl

theorem PortState.addCompletion_code (r : CompletionRecord) (v : Word) (ps : PortState) :
    PortState.addCompletion r { ps with commandWord := v } = { PortState.addCompletion r ps with commandWord := v } := by
  unfold PortState.addCompletion
  dsimp only
  split <;> rfl

theorem State.endPosting_withCode (s : State) (p : Port) (v : Word) (i : SlotId) (o : Option EndOutcome) :
    (s.withCode p v).endPosting i o = (s.endPosting i o).withCode p v := by
  unfold State.endPosting
  dsimp only
  rw [State.slot_withCode]
  split
  · rfl
  · have h : ∀ t : State, (((((t.withCode p v).updSlot i Slot.ended).dropTimerRef
        (s.slot i).fields).pruneStamps).forgetCut i).returnHeld (slotOwner i) (s.slot i) o.isSome =
          (((((t.updSlot i Slot.ended).dropTimerRef (s.slot i).fields).pruneStamps).forgetCut
            i).returnHeld (slotOwner i) (s.slot i) o.isSome).withCode p v := by
      intro t
      rw [← State.returnHeld_withCode]
      congr 1
      unfold State.dropTimerRef
      split <;> rfl
    cases o with
    | none => exact h s
    | some o =>
      dsimp only
      rw [State.updPort_withCode s p _ v _ (PortState.addCompletion_code _ v)]
      exact h _

theorem State.takeTrigger_withCode (s : State) (p : Port) (v : Word) (i : SlotId) :
    (s.withCode p v).takeTrigger i = (s.takeTrigger i).withCode p v := by
  unfold State.takeTrigger
  dsimp only
  rw [State.slot_withCode]
  rw [State.updCounters_withCode, State.raise_withCode]
  (repeat' split) <;> first | rfl | rw [State.endPosting_withCode]

theorem State.deliverTriggers_withCode (s : State) (p : Port) (v : Word) (ids : List SlotId) :
    (s.withCode p v).deliverTriggers ids = (s.deliverTriggers ids).withCode p v := by
  unfold State.deliverTriggers
  dsimp only
  simp only [State.slot_withCode]
  rw [State.makeDue_withCode, State.foldl_withCode (fun s i => State.takeTrigger_withCode s p v i), State.freeCount_withCode,
    State.foldl_withCode (fun s i => State.takeTrigger_withCode s p v i)]
  rfl

/-! ### A frame that the port ignores, and a FLUSH -/

/-- In an ignored frame no data word is taken (R149). -/
theorem State.takeWord_ignored {s : State} {p : Port} {f : Frame} (hf : (s.port p).frame = some f) (hi : f.ignored = true)
    (k : WordKind) (body : BitVec 12 → State → State) : s.takeWord p k body = s := by
  simp [State.takeWord, State.writeAddress, hf, hi]

/-- In an ignored frame a read captures nothing (R149). -/
theorem State.captureRead_ignored {s : State} {p : Port} {f : Frame} (hf : (s.port p).frame = some f)
    (hi : f.ignored = true) (a : BitVec 12) (rest : List (BitVec 12)) : s.captureRead p a rest = s := by
  simp [State.captureRead, hf, hi]

/-- Reads in an ignored frame return 0 (R149). -/
theorem State.readWord_ignored {s : State} {p : Port} {f : Frame} (hf : (s.port p).frame = some f) (hi : f.ignored = true)
    (a : BitVec 12) : s.readWord p a = 0 := by
  simp [State.readWord, hf, hi]

/-- Reads under a low port reset line return 0 (R149). -/
theorem State.readWord_lineLow {s : State} {p : Port} (h : (s.port p).lineLow = true) (a : BitVec 12) :
    s.readWord p a = 0 := by
  simp [State.readWord, h]

theorem State.seq_deliverOwn (s : State) (x : Sample) (rec : SampleRecord) : (s.deliverOwn x rec).seq = s.seq := by
  unfold State.deliverOwn
  dsimp only
  split <;> rfl

/-- A sample's delivery leaves the sequencer alone (R119). -/
theorem State.seq_deliver (s : State) (c : Option Port) (x : Sample) : (s.deliver c x).seq = s.seq := by
  have h : ∀ (ports : List Port) (f : State → Port → State) (t : State), (∀ u p, (f u p).seq = u.seq) →
      (ports.foldl f t).seq = t.seq := by
    intro ports f t hf
    induction ports generalizing t with
    | nil => rfl
    | cons q l ih => rw [List.foldl_cons, ih, hf]
  unfold State.deliver
  dsimp only
  split
  · rw [h _ _ _ fun u p => by split <;> rfl, State.seq_deliverOwn]
    rfl
  · rw [State.seq_deliverOwn]
    rfl

/-- Everything a readout does to the sequencer: the buffer is empty, and the accumulator may be another (R65, R66). -/
theorem State.seq_readout (s : State) (c : Option Port) :
    (s.readout c).1.seq = { s.seq with buffer := none, accumulator := (s.readout c).1.seq.accumulator } := by
  unfold State.readout
  dsimp only
  split
  · unfold State.readSweep
    split
    · rfl
    · split
      · dsimp only
        rw [State.seq_deliver]
        rfl
      · rfl
  all_goals rfl

/-- The words of a FLUSH in a statement are what the model does (R63). -/
theorem State.flush_eq_flushStarted (closing : Option Port) (s : State) : s.flush closing = s.flushStarted closing := by
  have h1 : (s.readout closing).1.seq.selectedChannel = s.seq.selectedChannel := by rw [s.seq_readout]
  have h2 := (s.kept_readout closing).now
  unfold State.flush State.flushStarted State.beginConversion State.timestamp State.updSeq
  dsimp only
  rw [h1, h2]
  rfl

/-- An own store draws on the posting's reservation exactly if its policy is STALL and it holds a place (R120). -/
theorem Slot.drawsReserved_iff (x : Slot) : x.drawsReserved = true ↔ x.fields.policy.toNat = 1 ∧ 0 < x.held := by
  simp [Slot.drawsReserved, SlotFields.policyOf_stall]

end Sys2Proof.Machine
end

