-- ==== Sys2Proof/Laws/PortControl.lean ====
section
/-! SUPPORT. What CLOSE and the resets leave alone, part by part. -/
namespace Sys2Proof.Machine

/-! ### The parts of a CLOSE that keep every port's setup -/

theorem State.kept_takePortReports (s : State) (p : Port) : s.Kept (s.takePortReports p) := s.kept_takeReports _

theorem State.kept_endPortPostings (s : State) (p : Port) : s.Kept (s.endPortPostings p) :=
  State.Kept.foldl (fun s i => s.kept_endPosting i none) _ s

theorem State.kept_leavePipeline (s : State) (p : Port) : s.Kept (s.leavePipeline p) := by
  unfold State.leavePipeline
  dsimp only
  refine State.Kept.trans ?_ (State.kept_countFree _)
  split
  · exact (s.kept_updSeq _).trans (State.kept_afterRemoval _ _)
  · exact s.kept_updSeq _

theorem State.kept_releaseTimers (s : State) (p : Port) : s.Kept (s.releaseTimers p) := by
  refine State.Kept.foldl (fun s n => ?_) _ s
  split
  · exact s.kept_updTimer n _
  · exact .refl s

/-- The state in which a CLOSE gives up its lease and shuts its port. -/
def State.closing (p : Port) (s : State) : State :=
  (((s.takePortReports p).endPortPostings p).leavePipeline p).releaseTimers p

theorem State.kept_closing (s : State) (p : Port) : s.Kept (s.closing p) :=
  (((s.kept_takePortReports p).trans (State.kept_endPortPostings _ p)).trans (State.kept_leavePipeline _ p)).trans
    (State.kept_releaseTimers _ p)

theorem State.closeEffects_eq (s : State) (p : Port) :
    s.closeEffects p = ((s.closing p).leaveLease p).updPort p PortState.shut := rfl

/-! ### The end of a lease -/

theorem State.discardProvisional_fold (l : List (Fin 32)) (s : State) :
    ∃ t, l.foldl (fun s i => { s with cal := { s.cal with
      table := tupd s.cal.table i fun e => { e with provisional := none } } }) s
        = { s with cal := { s.cal with table := t } } ∧
      ∀ j, tget t j = if j ∈ l then { tget s.cal.table j with provisional := none } else tget s.cal.table j := by
  induction l generalizing s with
  | nil => exact ⟨s.cal.table, rfl, fun j => by simp⟩
  | cons a l ih =>
    obtain ⟨t, e, h⟩ := ih { s with cal := { s.cal with
      table := tupd s.cal.table a fun e => { e with provisional := none } } }
    refine ⟨t, e, fun j => ?_⟩
    rw [h j]
    dsimp only
    rw [tget_tupd]
    by_cases h1 : j = a
    · subst h1
      simp
    · simp [h1]

/-- Every provisional part is discarded, and nothing else changes (R99). -/
theorem State.discardProvisional_eq (s : State) :
    ∃ t, s.discardProvisional = { s with cal := { s.cal with table := t } } ∧
      ∀ j, tget t j = { tget s.cal.table j with provisional := none } := by
  obtain ⟨t, e, h⟩ := State.discardProvisional_fold (List.finRange 32) s
  refine ⟨t, e, fun j => ?_⟩
  rw [h j, if_pos (List.mem_finRange j)]

/-- The lease ends before its time: no provisional part and no holder is left, and the commit record stays (R100). -/
theorem State.dropLease_eq (s : State) :
    ∃ t r, s.dropLease = { s with
        cal := { s.cal with table := t, lease := { s.cal.lease with holder := none, remaining := r } }
        freeCount := s.freeCount + 1 } ∧
      r ≤ Config.maxLease ∧ ∀ j, tget t j = { tget s.cal.table j with provisional := none } := by
  obtain ⟨t, e, h⟩ := s.discardProvisional_eq
  refine ⟨t, min (Config.endedLease s.freeCount) Config.maxLease, ?_, Nat.min_le_right _ _, h⟩
  unfold State.dropLease
  rw [e]
  rfl

/-- The end of the lease touches the Calibration Unit alone (and the count of free values). -/
theorem State.leaveLease_eq (s : State) (p : Port) :
    ∃ c k, s.leaveLease p = { s with cal := c, freeCount := k } := by
  unfold State.leaveLease
  split
  · obtain ⟨t, r, e, _⟩ := s.dropLease_eq
    exact ⟨_, _, e⟩
  · exact ⟨s.cal, s.freeCount, rfl⟩

@[simp] theorem State.port_leaveLease (s : State) (p q : Port) : (s.leaveLease p).port q = s.port q := by
  obtain ⟨c, k, e⟩ := s.leaveLease_eq p
  rw [e]
  rfl

@[simp] theorem State.slot_leaveLease (s : State) (p : Port) (i : SlotId) : (s.leaveLease p).slot i = s.slot i := by
  obtain ⟨c, k, e⟩ := s.leaveLease_eq p
  rw [e]
  rfl

@[simp] theorem State.timer_leaveLease (s : State) (p : Port) (n : Fin 4) : (s.leaveLease p).timer n = s.timer n := by
  obtain ⟨c, k, e⟩ := s.leaveLease_eq p
  rw [e]
  rfl

@[simp] theorem State.seq_leaveLease (s : State) (p : Port) : (s.leaveLease p).seq = s.seq := by
  obtain ⟨c, k, e⟩ := s.leaveLease_eq p
  rw [e]

@[simp] theorem State.arbiter_leaveLease (s : State) (p : Port) : (s.leaveLease p).arbiter = s.arbiter := by
  obtain ⟨c, k, e⟩ := s.leaveLease_eq p
  rw [e]

@[simp] theorem State.store_leaveLease (s : State) (p : Port) : (s.leaveLease p).store = s.store := by
  obtain ⟨c, k, e⟩ := s.leaveLease_eq p
  rw [e]

@[simp] theorem State.lines_leaveLease (s : State) (p : Port) : (s.leaveLease p).lines = s.lines := by
  obtain ⟨c, k, e⟩ := s.leaveLease_eq p
  rw [e]

@[simp] theorem State.now_leaveLease (s : State) (p : Port) : (s.leaveLease p).now = s.now := by
  obtain ⟨c, k, e⟩ := s.leaveLease_eq p
  rw [e]

@[simp] theorem State.inReset_leaveLease (s : State) (p : Port) : (s.leaveLease p).inReset = s.inReset := by
  obtain ⟨c, k, e⟩ := s.leaveLease_eq p
  rw [e]

@[simp] theorem State.pending_leaveLease (s : State) (p : Port) : (s.leaveLease p).pending = s.pending := by
  obtain ⟨c, k, e⟩ := s.leaveLease_eq p
  rw [e]

/-! ### Emptying -/

/-- The emptying of a queue touches its ring and the timeout counter alone. -/
theorem PortState.setupKept_emptyQueue (ps : PortState) (q : QueueId) : ps.SetupKept (ps.emptyQueue q) :=
  (ps.setupKept_updRing q _).trans (PortState.setupKept_sourceEmptied _ q)

theorem PortState.setupKept_emptySamples (ps : PortState) : ps.SetupKept ps.emptySamples := by
  have h := (ps.setupKept_emptyQueue .q0).trans (PortState.setupKept_emptyQueue _ .q1)
  exact ⟨h.mode, h.config, h.params, h.commandWord, h.result, h.enables, h.frame, h.lineLow, h.filters, h.unmatched⟩

/-- Both queues, the latest-value slots and, if its source is a queue, the timeout counter are as R136, R140 and R138 say;
all else stays. -/
theorem PortState.emptySamples_eq (ps : PortState) :
    ps.emptySamples = { ps with
      ring0 := Ring.empty, ring1 := Ring.empty, latest := Vector.replicate 16 LatestSlot.empty
      timeout := if ps.config.timeoutSource = 1 ∨ ps.config.timeoutSource = 2 then
        { value := ps.config.timeoutPreset.toNat, state := .held, elapsed := 0 } else ps.timeout } := by
  obtain ⟨m, c, pa, w, r, fl, en, wa, fr, li, fi, un, r0, r1, la, ti, co⟩ := ps
  obtain ⟨c0, c1, src, pre⟩ := c
  by_cases h1 : src = 1
  · subst h1
    rfl
  · by_cases h2 : src = 2
    · subst h2
      rfl
    · simp [PortState.emptySamples, PortState.emptyQueue, PortState.sourceEmptied, PortState.isTimeoutSource,
        PortState.updRing, show ¬ src = 1#16 from h1, show ¬ src = 2#16 from h2]

/-! ### Port reset -/

/-- A fold of resets of slots. -/
theorem State.slot_resetSlots (l : List SlotId) (s : State) (i : SlotId) :
    (l.foldl (fun s i => s.updSlot i fun _ => Slot.reset) s).slot i = if i ∈ l then Slot.reset else s.slot i := by
  induction l generalizing s with
  | nil => simp
  | cons a l ih =>
    rw [List.foldl_cons, ih, State.slot_updSlot]
    by_cases h : i = a
    · simp [h]
    · simp [h]

theorem State.resetSlots_eq (l : List SlotId) (s : State) :
    ∃ v, l.foldl (fun s i => s.updSlot i fun _ => Slot.reset) s = { s with slots := v } := by
  induction l generalizing s with
  | nil => exact ⟨s.slots, rfl⟩
  | cons a l ih =>
    obtain ⟨v, e⟩ := ih (s.updSlot a fun _ => Slot.reset)
    exact ⟨v, e⟩

theorem mem_allSlots (i : SlotId) : i ∈ allSlots := by
  revert i
  decide

theorem mem_portSlots (p : Port) (i : SlotId) : i ∈ portSlots p ↔ slotOwner i = p := by
  simp [portSlots, mem_allSlots]

/-- A port reset, after the CLOSE of a port that is OPEN, touches the port and its slots (R149). -/
theorem State.portReset_eq (s : State) (p : Port) :
    ∃ v, s.portReset p =
        { (if (s.port p).mode = .opened then s.closeEffects p else s).updPort p PortState.clear with slots := v } ∧
      ∀ i, tget v i = if slotOwner i = p then Slot.reset
        else (if (s.port p).mode = .opened then s.closeEffects p else s).slot i := by
  obtain ⟨v, e⟩ := State.resetSlots_eq (portSlots p)
    ((if (s.port p).mode = .opened then s.closeEffects p else s).updPort p PortState.clear)
  refine ⟨v, e, fun i => ?_⟩
  have h := State.slot_resetSlots (portSlots p)
    ((if (s.port p).mode = .opened then s.closeEffects p else s).updPort p PortState.clear) i
  rw [e] at h
  simp only [mem_portSlots] at h
  exact h

end Sys2Proof.Machine
end

