-- ==== Sys2Proof/Laws/Steps.lean ====
section
/-! SUPPORT. Every command answers a next state and leaves the waiting commands; and a property that every part of the
part's work keeps, every step keeps. A proof of an invariant names what it has to show for each kind of work, and nothing
about frames, answers or the dispatch. -/
namespace Sys2Proof.Machine

/-- What each kind of work has to keep for a property of states to be an invariant. -/
structure KeptBySteps (I : State → Prop) : Prop where
  words : ∀ s t, s.CoreSame t → I s → I t
  lineLow : ∀ s p b, I s → I (s.updPort p fun ps => { ps with lineLow := b })
  slotFields : ∀ s i f, (s.slot i).state = .idle → I s → I (s.updSlot i fun x => { x with fields := f })
  configuration : ∀ s p a v, (s.port p).mode = .closed → I s → I (s.updPort p (PortState.writeConfiguration a v))
  openPort : ∀ s p, I s → I (s.openPort p).1
  closeEffects : ∀ s p, (s.port p).mode = .opened → I s → I (s.closeEffects p)
  portReset : ∀ s p, I s → I (s.portReset p)
  resetAll : ∀ s b, I s → I (s.resetAll b)
  post : ∀ s p, (s.port p).mode = .opened → I s → I (s.post p).1
  cancel : ∀ s p, I s → I (s.cancel p).1
  deliverTriggers : ∀ s names, I s → I (s.deliverTriggers (s.reached names))
  trigger : ∀ s i, (s.slot i).state ≠ .idle → I s → I (s.deliverTriggers [i])
  ackQueue : ∀ s p, I s → I (s.ackQueue p).1
  releaseSlots : ∀ s p, I s → I (s.releaseSlots p).1
  popCompletion : ∀ s p, I s → I (s.popCompletion p).1
  claimTimer : ∀ s p n, (s.port p).mode = .opened → I s → I (s.updTimer n fun t => (t.claim p).1)
  setTimer : ∀ s n a b, I s → I (s.updTimer n fun t => { t with prescale := a, period := b })
  startTimer : ∀ s p n, (s.timer n).state.owner = some p → I s → I (s.updTimer n fun t => (t.start p).1)
  stopTimer : ∀ s p n, (s.timer n).state.owner = some p → I s → I (s.updTimer n fun t => (t.stop p).1)
  releaseTimer : ∀ s n, I s → I (s.updTimer n Timer.release)
  line : ∀ s n f, I s → I (s.updLine n f)
  renew : ∀ s, I s → I (s.updLease Lease.renew)
  takeLease : ∀ s p, (s.port p).mode = .opened → I s → I (s.takeLease p).1
  endLease : ∀ s, I s → I s.dropLease
  leaseExpiry : ∀ s, I s → I s.leaseExpiry
  setProvisional : ∀ s p ch c, s.cal.lease.holder = some p → I s →
    I (s.updCalEntry ch fun e => { e with provisional := some c })
  dropProvisional : ∀ s ch, I s → I (s.updCalEntry ch fun e => { e with provisional := none })
  commitPending : ∀ s ch b, I s → I (s.updCalEntry ch fun e => { e with commitPending := b })
  fillCommit : ∀ s k ch p, I s → I (s.fillCommit k ch p)
  store : ∀ s x, I s → I { s with store := x }
  restartConverter : ∀ s, I s → I s.restartConverter.1
  timerUnit : ∀ s n, I s → I (s.updTimer n Timer.unit)
  timerLoad : ∀ s n, (s.timer n).state.counting = true → I s → I (s.updTimer n Timer.load)
  grant : ∀ s, I s → I s.grant
  startConversion : ∀ s w, I s → I (s.startConversion w)
  converterDone : ∀ s raw w, I s → I (s.converterDone raw w)
  takeFirstReport : ∀ s, I s → I s.takeFirstReport
  doneTimeout : ∀ s, I s → I s.doneTimeout
  cut : ∀ s i, I s → I (s.cut i)
  microsecond : ∀ s, I s → I s.passMicrosecond
  timeoutTick : ∀ s p, I s → I (s.updPort p PortState.timeoutTick)
  timeoutExpiry : ∀ s p, I s → I (s.updPort p PortState.timeoutExpiry)
  takeWriteReport : ∀ s b, I s → I (s.takeWriteReport b)
  installRecords : ∀ s ch, I s → I (s.installRecords ch)
  emptyCommit : ∀ s, I s → I s.emptyCommit

namespace KeptBySteps
variable {I : State → Prop} (k : KeptBySteps I)
include k

theorem raise {s : State} (p : Port) (e : Event) (h : I s) : I (s.raise p e) := k.words _ _ (s.coreSame_raise p e) h

theorem raiseAll {s : State} (e : Event) (h : I s) : I (s.raiseAll e) := k.words _ _ (s.coreSame_raiseAll e) h

theorem portWords {s : State} (p : Port) {f : PortState → PortState} (h : I s)
    (hf : (s.port p).CoreSame (f (s.port p))) : I (s.updPort p f) := k.words _ _ (s.coreSame_updPort p hf) h

theorem takeWord {s : State} {p : Port} {w : WordKind} {body : BitVec 12 → State → State} (h : I s)
    (hb : ∀ a, s.AtWord p a → wordKind a = w → I (body a s)) : I (s.takeWord p w body) :=
  State.takeWord_keeps k.words h hb

theorem whenOpen {s : State} {p : Port} {n : Nat} {body : State → State × ResultCode} (h : I s)
    (hb : ∀ t, (t.port p).mode = .opened → I t → I (body t).1) :
    I (s.command p n fun s => s.whenOpen p body) :=
  State.command_keeps k.words h fun t _ ht => State.whenOpen_keeps ht fun e => hb t e ht

omit k in
theorem withOwnTimer {s : State} {p : Port} {body : Fin 4 → State → State × ResultCode} (h : I s)
    (hb : ∀ n, (s.timer n).state.owner = some p → I (body n s).1) : I (s.withOwnTimer p body).1 := by
  unfold State.withOwnTimer State.withTimer
  split
  · exact h
  · next n _ =>
    dsimp only
    split
    · next e => exact hb n e
    · exact h

theorem leaseCommand {s : State} {p : Port} {body : State → State × ResultCode} (h : I (body s).1) :
    I (s.leaseCommand p body).1 := by
  unfold State.leaseCommand
  dsimp only
  split
  · exact k.renew _ h
  · exact h

omit k in
theorem withChannel {s : State} {p : Port} {body : Channel → State → State × ResultCode} (h : I s)
    (hb : ∀ ch, s.cal.lease.holder = some p → I (body ch s).1) : I (s.withChannel p body).1 := by
  unfold State.withChannel
  split
  · exact h
  · next ch _ =>
    split
    · next e => exact hb ch e
    · exact h

theorem captureRead {s : State} {p : Port} {a : BitVec 12} {rest : List (BitVec 12)} (h : I s) :
    I (s.captureRead p a rest) := by
  unfold State.captureRead
  split
  · split
    · exact k.portWords p h ⟨rfl, rfl, rfl, rfl, rfl, rfl, rfl, rfl, rfl, rfl⟩
    · exact h
  · exact h

theorem qualifiedChange {s : State} (n : Fin 4) (level : Bool) (h : I s) : I (s.qualifiedChange n level) := by
  unfold State.qualifiedChange
  dsimp only
  split
  · exact k.deliverTriggers _ _ (k.line _ _ _ h)
  · exact k.line _ _ _ h

theorem frameHeader_next {s : State} (p : Port) (header : Word) (h : I s) :
    ∃ t, Machine.exec (.frameHeader p header) s = .next t ∧ I t := by
  refine ⟨_, rfl, ?_⟩
  split
  · exact k.portWords p h ⟨rfl, rfl, rfl, rfl, rfl, rfl, rfl, rfl, rfl, rfl⟩
  · exact h

theorem frameEnd_next {s : State} (p : Port) (h : I s) : ∃ t, Machine.exec (.frameEnd p) s = .next t ∧ I t := by
  refine ⟨_, rfl, ?_⟩
  exact (k.portWords p h ⟨rfl, rfl, rfl, rfl, rfl, rfl, rfl, rfl, rfl, rfl⟩)


theorem writeWord_next {s : State} (p : Port) (v : Word) (h : I s) :
    ∃ t, Machine.exec (.writeWord p v) s = .next t ∧ I t := by
  refine ⟨_, rfl, ?_⟩
  split
  · exact k.takeWord h fun a _ _ => k.portWords p h ⟨rfl, rfl, rfl, rfl, rfl, rfl, rfl, rfl, rfl, rfl⟩
  · exact k.takeWord h fun a _ _ => h

theorem slotFieldWrite_next {s : State} (p : Port) (v : Word) (h : I s) :
    ∃ t, Machine.exec (.slotFieldWrite p v) s = .next t ∧ I t := by
  refine ⟨_, rfl, ?_⟩
  refine (k.takeWord h fun a _ _ => ?_)
  unfold State.writeSlotWord
  split
  · next i _ =>
    split
    · next hi => exact k.slotFields s i _ hi h
    · exact k.raise _ _ h
  · exact h

theorem configurationWrite_next {s : State} (p : Port) (v : Word) (h : I s) :
    ∃ t, Machine.exec (.configurationWrite p v) s = .next t ∧ I t := by
  refine ⟨_, rfl, ?_⟩
  refine (k.takeWord h fun a _ _ => ?_)
  by_cases hm : (s.port p).mode = .closed
  · have e := State.updPort_congr s p (f := fun ps =>
      if ps.mode = .closed then ps.writeConfiguration a v else ps.raise .writeDiscarded)
      (g := PortState.writeConfiguration a v) (if_pos hm)
    rw [e]
    exact k.configuration s p a v hm h
  · have e := State.updPort_congr s p (f := fun ps =>
      if ps.mode = .closed then ps.writeConfiguration a v else ps.raise .writeDiscarded)
      (g := PortState.raise .writeDiscarded) (if_neg hm)
    rw [e]
    exact k.raise p _ h

theorem eventFlagWrite_next {s : State} (p : Port) (v : Word) (h : I s) :
    ∃ t, Machine.exec (.eventFlagWrite p v) s = .next t ∧ I t := by
  refine ⟨_, rfl, ?_⟩
  exact (k.takeWord h fun a _ _ => k.portWords p h ⟨rfl, rfl, rfl, rfl, rfl, rfl, rfl, rfl, rfl, rfl⟩)

theorem eventEnableWrite_next {s : State} (p : Port) (v : Word) (h : I s) :
    ∃ t, Machine.exec (.eventEnableWrite p v) s = .next t ∧ I t := by
  refine ⟨_, rfl, ?_⟩
  exact (k.takeWord h fun a _ _ => k.portWords p h ⟨rfl, rfl, rfl, rfl, rfl, rfl, rfl, rfl, rfl, rfl⟩)

theorem watchedChannelWrite_next {s : State} (p : Port) (v : Word) (h : I s) :
    ∃ t, Machine.exec (.watchedChannelWrite p v) s = .next t ∧ I t := by
  refine ⟨_, rfl, ?_⟩
  exact (k.takeWord h fun a _ _ => k.portWords p h ⟨rfl, rfl, rfl, rfl, rfl, rfl, rfl, rfl, rfl, rfl⟩)

theorem timestampLowRead_next {s : State} (p : Port) (h : I s) :
    ∃ t, Machine.exec (.timestampLowRead p) s = .next t ∧ I t := by
  refine ⟨_, rfl, ?_⟩
  exact (k.captureRead h)


theorem counterLowWordRead_next {s : State} (p : Port) (i : Fin 8) (j : Fin 5) (h : I s) :
    ∃ t, Machine.exec (.counterLowWordRead p i j) s = .next t ∧ I t := by
  refine ⟨_, rfl, ?_⟩
  exact (k.captureRead h)


theorem recordFirstWordRead_next {s : State} (p : Port) (r : RecordHolder) (h : I s) :
    ∃ t, Machine.exec (.recordFirstWordRead p r) s = .next t ∧ I t := by
  refine ⟨_, rfl, ?_⟩
  exact (k.captureRead h)


theorem resultWordRead_next {s : State} (p : Port) (h : I s) :
    ∃ t, Machine.exec (.resultWordRead p) s = .next t ∧ I t := by
  refine ⟨_, rfl, ?_⟩
  exact (k.captureRead h)


theorem unknownCommand_next {s : State} (p : Port) (code : Word) (h : I s) :
    ∃ t, Machine.exec (.unknownCommand p code) s = .next t ∧ I t := by
  refine ⟨_, rfl, ?_⟩
  split
  · exact h
  · unfold State.issue
    refine k.takeWord h fun a _ _ => ?_
    exact k.portWords p (k.portWords p h ⟨rfl, rfl, rfl, rfl, rfl, rfl, rfl, rfl, rfl, rfl⟩)
      ⟨rfl, rfl, rfl, rfl, rfl, rfl, rfl, rfl, rfl, rfl⟩

theorem openPort_next {s : State} (p : Port) (h : I s) : ∃ t, Machine.exec (.openPort p) s = .next t ∧ I t := by
  refine ⟨_, rfl, ?_⟩
  exact (State.command_keeps k.words h fun t _ ht => k.openPort t p ht)


theorem closePort_next {s : State} (p : Port) (h : I s) : ∃ t, Machine.exec (.closePort p) s = .next t ∧ I t := by
  refine ⟨_, rfl, ?_⟩
  exact (k.whenOpen h fun t ho ht => k.closeEffects t p ho ht)


theorem resetPort_next {s : State} (p : Port) (h : I s) : ∃ t, Machine.exec (.resetPort p) s = .next t ∧ I t := by
  refine ⟨_, rfl, ?_⟩
  split
  · exact k.portWords p (k.portReset _ p (k.portWords p h ⟨rfl, rfl, rfl, rfl, rfl, rfl, rfl, rfl, rfl, rfl⟩))
      ⟨rfl, rfl, rfl, rfl, rfl, rfl, rfl, rfl, rfl, rfl⟩
  · exact State.command_keeps k.words h fun t _ ht => k.portReset t p ht


theorem post_next {s : State} (p : Port) (h : I s) : ∃ t, Machine.exec (.post p) s = .next t ∧ I t := by
  refine ⟨_, rfl, ?_⟩
  exact (k.whenOpen h fun t ho ht => k.post t p ho ht)


theorem cancel_next {s : State} (p : Port) (h : I s) : ∃ t, Machine.exec (.cancel p) s = .next t ∧ I t := by
  refine ⟨_, rfl, ?_⟩
  exact (k.whenOpen h fun t _ ht => k.cancel t p ht)


theorem trigger_next {s : State} (p : Port) (h : I s) : ∃ t, Machine.exec (.trigger p) s = .next t ∧ I t := by
  refine ⟨_, rfl, ?_⟩
  refine (k.whenOpen h fun t _ ht => ?_)
  unfold State.trigger
  split
  · exact ht
  · split
    · exact ht
    · split
      · exact ht
      · next hi => exact k.trigger t _ hi ht

theorem ackQueue_next {s : State} (p : Port) (h : I s) : ∃ t, Machine.exec (.ackQueue p) s = .next t ∧ I t := by
  refine ⟨_, rfl, ?_⟩
  exact (k.whenOpen h fun t _ ht => k.ackQueue t p ht)


theorem releaseSlots_next {s : State} (p : Port) (h : I s) :
    ∃ t, Machine.exec (.releaseSlots p) s = .next t ∧ I t := by
  refine ⟨_, rfl, ?_⟩
  exact (k.whenOpen h fun t _ ht => k.releaseSlots t p ht)


theorem popCompletion_next {s : State} (p : Port) (h : I s) :
    ∃ t, Machine.exec (.popCompletion p) s = .next t ∧ I t := by
  refine ⟨_, rfl, ?_⟩
  exact (State.command_keeps k.words h fun t _ ht => k.popCompletion t p ht)


theorem claimTimer_next {s : State} (p : Port) (h : I s) : ∃ t, Machine.exec (.claimTimer p) s = .next t ∧ I t := by
  refine ⟨_, rfl, ?_⟩
  refine (k.whenOpen h fun t ho ht => ?_)
  unfold State.claimTimer State.withTimer
  split
  · exact ht
  · exact k.claimTimer t p _ ho ht

theorem setTimer_next {s : State} (p : Port) (h : I s) : ∃ t, Machine.exec (.setTimer p) s = .next t ∧ I t := by
  refine ⟨_, rfl, ?_⟩
  refine (k.whenOpen h fun t _ ht => KeptBySteps.withOwnTimer ht fun n _ => ?_)
  dsimp only
  split
  · exact k.setTimer t n _ _ ht
  · exact ht

theorem startTimer_next {s : State} (p : Port) (h : I s) : ∃ t, Machine.exec (.startTimer p) s = .next t ∧ I t := by
  refine ⟨_, rfl, ?_⟩
  exact (k.whenOpen h fun t _ ht => KeptBySteps.withOwnTimer ht fun n ho => k.startTimer t p n ho ht)


theorem stopTimer_next {s : State} (p : Port) (h : I s) : ∃ t, Machine.exec (.stopTimer p) s = .next t ∧ I t := by
  refine ⟨_, rfl, ?_⟩
  exact (k.whenOpen h fun t _ ht => KeptBySteps.withOwnTimer ht fun n ho => k.stopTimer t p n ho ht)


theorem releaseTimer_next {s : State} (p : Port) (h : I s) :
    ∃ t, Machine.exec (.releaseTimer p) s = .next t ∧ I t := by
  refine ⟨_, rfl, ?_⟩
  exact (k.whenOpen h fun t _ ht => KeptBySteps.withOwnTimer ht fun n _ => k.releaseTimer t n ht)


theorem setLine_next {s : State} (p : Port) (h : I s) : ∃ t, Machine.exec (.setLine p) s = .next t ∧ I t := by
  refine ⟨_, rfl, ?_⟩
  refine (k.whenOpen h fun t _ ht => ?_)
  unfold State.setLine
  split
  · split
    · exact ht
    · exact k.line t _ _ ht
  · exact ht

theorem lease_next {s : State} (p : Port) (h : I s) : ∃ t, Machine.exec (.lease p) s = .next t ∧ I t := by
  refine ⟨_, rfl, ?_⟩
  exact (k.whenOpen h fun t ho ht => k.leaseCommand (k.takeLease t p ho ht))


theorem endLease_next {s : State} (p : Port) (h : I s) : ∃ t, Machine.exec (.endLease p) s = .next t ∧ I t := by
  refine ⟨_, rfl, ?_⟩
  refine (k.whenOpen h fun t _ ht => ?_)
  unfold State.endLease
  split
  · exact k.endLease t ht
  · exact ht

theorem setProvisional_next {s : State} (p : Port) (h : I s) :
    ∃ t, Machine.exec (.setProvisional p) s = .next t ∧ I t := by
  refine ⟨_, rfl, ?_⟩
  refine (k.whenOpen h fun t _ ht => k.leaseCommand ?_)
  unfold State.setProvisional
  split
  · exact ht
  · split
    · exact ht
    · split
      · exact ht
      · next hh => exact k.setProvisional t p _ _ (Classical.not_not.mp hh) ht

theorem dropProvisional_next {s : State} (p : Port) (h : I s) :
    ∃ t, Machine.exec (.dropProvisional p) s = .next t ∧ I t := by
  refine ⟨_, rfl, ?_⟩
  refine (k.whenOpen h fun t _ ht => k.leaseCommand (KeptBySteps.withChannel ht fun ch _ => ?_))
  split
  · exact ht
  · exact k.dropProvisional t ch ht

theorem commit_next {s : State} (p : Port) (h : I s) : ∃ t, Machine.exec (.commit p) s = .next t ∧ I t := by
  refine ⟨_, rfl, ?_⟩
  refine (k.whenOpen h fun t _ ht => k.leaseCommand (KeptBySteps.withChannel ht fun ch _ => ?_))
  split
  · exact ht
  · split
    · exact ht
    · exact k.store _ _ (k.store _ _ (k.commitPending _ ch true (k.fillCommit _ _ _ _ ht)))

theorem burnFactory_next {s : State} (p : Port) (h : I s) : ∃ t, Machine.exec (.burnFactory p) s = .next t ∧ I t := by
  refine ⟨_, rfl, ?_⟩
  refine (k.whenOpen h fun t _ ht => k.leaseCommand (KeptBySteps.withChannel ht fun ch _ => ?_))
  split
  · exact ht
  · split
    · exact ht
    · split
      · exact ht
      · exact k.store _ _ (k.store _ _ (k.fillCommit _ _ _ _ ht))

theorem reload_next {s : State} (p : Port) (h : I s) : ∃ t, Machine.exec (.reload p) s = .next t ∧ I t := by
  refine ⟨_, rfl, ?_⟩
  refine (k.whenOpen h fun t _ ht => k.leaseCommand (KeptBySteps.withChannel ht fun ch _ => ?_))
  split
  · exact ht
  · exact k.store _ _ (k.fillCommit _ _ _ _ (k.dropProvisional _ _ ht))

theorem restartConverter_next {s : State} (p : Port) (h : I s) :
    ∃ t, Machine.exec (.restartConverter p) s = .next t ∧ I t := by
  refine ⟨_, rfl, ?_⟩
  exact (k.whenOpen h fun t _ ht => k.restartConverter t ht)


theorem deviceReset_next {s : State} (h : I s) : ∃ t, Machine.exec .deviceReset s = .next t ∧ I t := by
  refine ⟨_, rfl, ?_⟩
  split
  · exact h
  · exact k.resetAll s _ h

theorem deviceResetEnd_next {s : State} (h : I s) : ∃ t, Machine.exec .deviceResetEnd s = .next t ∧ I t := by
  refine ⟨_, rfl, ?_⟩
  split
  · exact k.resetAll s _ h
  · exact h

theorem portResetLine_next {s : State} (p : Port) (h : I s) :
    ∃ t, Machine.exec (.portResetLine p) s = .next t ∧ I t := by
  have h1 := k.portWords (f := fun ps =>
      { ps with frame := none, result := ResultWord.reset
                lineCut := if (s.port p).frame.any Frame.atCommand then some s.now else none }) p
    (k.lineLow _ p true (k.portReset s p h)) ⟨rfl, rfl, rfl, rfl, rfl, rfl, rfl, rfl, rfl, rfl⟩
  rw [State.updPort_updPort] at h1
  refine ⟨_, rfl, ?_⟩
  unfold State.portResetLine
  split
  · exact h
  · exact h1

theorem portResetLineRelease_next {s : State} (p : Port) (h : I s) :
    ∃ t, Machine.exec (.portResetLineRelease p) s = .next t ∧ I t := by
  refine ⟨_, rfl, ?_⟩
  exact (k.lineLow s p false h)


theorem lineInputChange_next {s : State} (n : Fin 4) (level : Bool) (h : I s) :
    ∃ t, Machine.exec (.lineInputChange n level) s = .next t ∧ I t := by
  refine ⟨_, rfl, ?_⟩
  unfold State.lineInputChange
  have h1 := k.line s n (fun l => { l with input := level }) h
  split
  · exact h
  · dsimp only
    split
    · exact h1
    · split
      · exact k.line _ _ _ h1
      · split
        · exact k.qualifiedChange n level h1
        · split
          · exact h1
          · exact k.line _ _ _ h1

theorem lineQualificationEnd_next {s : State} (n : Fin 4) (h : I s) :
    ∃ t, Machine.exec (.lineQualificationEnd n) s = .next t ∧ I t := by
  refine ⟨_, rfl, ?_⟩
  unfold State.lineQualificationEnd
  split
  · split
    · exact k.qualifiedChange n _ h
    · exact h
  · exact h

theorem timerUnit_next {s : State} (n : Fin 4) (h : I s) : ∃ t, Machine.exec (.timerUnit n) s = .next t ∧ I t := by
  refine ⟨_, rfl, ?_⟩
  exact (k.timerUnit s n h)


theorem timerExpiry_next {s : State} (n : Fin 4) (h : I s) :
    ∃ t, Machine.exec (.timerExpiry n) s = .next t ∧ I t := by
  refine ⟨_, rfl, ?_⟩
  unfold State.timerExpiry
  split
  · next hd =>
    refine k.deliverTriggers _ _ (k.timerLoad s n ?_ h)
    simp only [Timer.expiryDue, Bool.and_eq_true] at hd
    exact hd.1
  · exact h

theorem grant_next {s : State} (h : I s) : ∃ t, Machine.exec .grant s = .next t ∧ I t := by
  refine ⟨_, rfl, ?_⟩
  exact (k.grant s h)


theorem startConversion_next {s : State} (w : ReportTaking) (h : I s) :
    ∃ t, Machine.exec (.startConversion w) s = .next t ∧ I t := by
  refine ⟨_, rfl, ?_⟩
  exact (k.startConversion s w h)


theorem converterDone_next {s : State} (d : ConversionEnd) (h : I s) :
    ∃ t, Machine.exec (.converterDone d) s = .next t ∧ I t := by
  refine ⟨_, rfl, ?_⟩
  exact (k.converterDone s d.raw d.taking h)


theorem doneTimeout_next {s : State} (h : I s) : ∃ t, Machine.exec .doneTimeout s = .next t ∧ I t := by
  refine ⟨_, rfl, ?_⟩
  exact (k.doneTimeout s h)


theorem cut_next {s : State} (i : SlotId) (h : I s) : ∃ t, Machine.exec (.cut i) s = .next t ∧ I t := by
  refine ⟨_, rfl, ?_⟩
  exact (k.cut s i h)


theorem timeWrap_next {s : State} (h : I s) : ∃ t, Machine.exec .timeWrap s = .next t ∧ I t := by
  refine ⟨_, rfl, ?_⟩
  split
  · exact k.raiseAll _ (k.microsecond s h)
  · exact h

theorem queueTimeoutTick_next {s : State} (p : Port) (h : I s) :
    ∃ t, Machine.exec (.queueTimeoutTick p) s = .next t ∧ I t := by
  refine ⟨_, rfl, ?_⟩
  exact (k.timeoutTick s p h)


theorem queueTimeoutExpiry_next {s : State} (p : Port) (h : I s) :
    ∃ t, Machine.exec (.queueTimeoutExpiry p) s = .next t ∧ I t := by
  refine ⟨_, rfl, ?_⟩
  exact (k.timeoutExpiry s p h)


theorem leaseExpiry_next {s : State} (h : I s) : ∃ t, Machine.exec .leaseExpiry s = .next t ∧ I t := by
  refine ⟨_, rfl, ?_⟩
  exact (k.leaseExpiry s h)


theorem storeWriteEnd_next {s : State} (b : Bool) (h : I s) :
    ∃ t, Machine.exec (.storeWriteEnd b) s = .next t ∧ I t := by
  refine ⟨_, rfl, ?_⟩
  unfold State.storeWriteEnd
  split
  · split
    · exact k.takeWriteReport _ b (k.store _ _ (k.store _ _ h))
    · exact k.takeWriteReport _ b (k.store _ _ (k.store _ _ h))
    all_goals exact h
  · exact h

theorem storeReadEnd_next {s : State} (h : I s) : ∃ t, Machine.exec .storeReadEnd s = .next t ∧ I t := by
  refine ⟨_, rfl, ?_⟩
  unfold State.storeReadEnd
  split
  · split
    · dsimp only
      split
      · exact k.raise _ _ (k.emptyCommit _ (k.store _ _ (k.installRecords s _ h)))
      · exact k.store _ _ (k.installRecords s _ h)
    all_goals exact h
  · exact h

theorem loadChannelEnd_next {s : State} (h : I s) : ∃ t, Machine.exec .loadChannelEnd s = .next t ∧ I t := by
  refine ⟨_, rfl, ?_⟩
  unfold State.loadChannelEnd
  split
  · split
    · dsimp only
      split
      · exact k.raiseAll _ (k.store _ _ (k.installRecords s _ h))
      · exact k.store _ _ (k.installRecords s _ h)
    all_goals exact h
  · exact h

/-- Every command keeps the property. -/
theorem exec (c : Instr) (s t : State) (h : I s) (e : Machine.exec c s = .next t) : I t := by
  have out : ∀ o : Host.Outcome State Fault Refusal, (∃ u, o = .next u ∧ I u) → o = .next t → I t := by
    rintro o ⟨u, rfl, hu⟩ h2
    cases h2
    exact hu
  refine out _ ?_ e
  cases c with
  | frameHeader p header => exact k.frameHeader_next p header h
  | frameEnd p => exact k.frameEnd_next p h
  | writeWord p v => exact k.writeWord_next p v h
  | slotFieldWrite p v => exact k.slotFieldWrite_next p v h
  | configurationWrite p v => exact k.configurationWrite_next p v h
  | eventFlagWrite p v => exact k.eventFlagWrite_next p v h
  | eventEnableWrite p v => exact k.eventEnableWrite_next p v h
  | watchedChannelWrite p v => exact k.watchedChannelWrite_next p v h
  | timestampLowRead p => exact k.timestampLowRead_next p h
  | counterLowWordRead p i j => exact k.counterLowWordRead_next p i j h
  | recordFirstWordRead p r => exact k.recordFirstWordRead_next p r h
  | resultWordRead p => exact k.resultWordRead_next p h
  | unknownCommand p code => exact k.unknownCommand_next p code h
  | openPort p => exact k.openPort_next p h
  | closePort p => exact k.closePort_next p h
  | resetPort p => exact k.resetPort_next p h
  | post p => exact k.post_next p h
  | cancel p => exact k.cancel_next p h
  | trigger p => exact k.trigger_next p h
  | ackQueue p => exact k.ackQueue_next p h
  | releaseSlots p => exact k.releaseSlots_next p h
  | popCompletion p => exact k.popCompletion_next p h
  | claimTimer p => exact k.claimTimer_next p h
  | setTimer p => exact k.setTimer_next p h
  | startTimer p => exact k.startTimer_next p h
  | stopTimer p => exact k.stopTimer_next p h
  | releaseTimer p => exact k.releaseTimer_next p h
  | setLine p => exact k.setLine_next p h
  | lease p => exact k.lease_next p h
  | endLease p => exact k.endLease_next p h
  | setProvisional p => exact k.setProvisional_next p h
  | dropProvisional p => exact k.dropProvisional_next p h
  | commit p => exact k.commit_next p h
  | burnFactory p => exact k.burnFactory_next p h
  | reload p => exact k.reload_next p h
  | restartConverter p => exact k.restartConverter_next p h
  | deviceReset => exact k.deviceReset_next h
  | deviceResetEnd => exact k.deviceResetEnd_next h
  | portResetLine p => exact k.portResetLine_next p h
  | portResetLineRelease p => exact k.portResetLineRelease_next p h
  | lineInputChange n level => exact k.lineInputChange_next n level h
  | lineQualificationEnd n => exact k.lineQualificationEnd_next n h
  | timerUnit n => exact k.timerUnit_next n h
  | timerExpiry n => exact k.timerExpiry_next n h
  | grant => exact k.grant_next h
  | startConversion w => exact k.startConversion_next w h
  | converterDone d => exact k.converterDone_next d h
  | doneTimeout => exact k.doneTimeout_next h
  | cut i => exact k.cut_next i h
  | timeWrap => exact k.timeWrap_next h
  | queueTimeoutTick p => exact k.queueTimeoutTick_next p h
  | queueTimeoutExpiry p => exact k.queueTimeoutExpiry_next p h
  | leaseExpiry => exact k.leaseExpiry_next h
  | storeWriteEnd b => exact k.storeWriteEnd_next b h
  | storeReadEnd => exact k.storeReadEnd_next h
  | loadChannelEnd => exact k.loadChannelEnd_next h

/-- Every step keeps the property. -/
theorem step (s t : State) (h : I s) (e : step s = .next t) : I t := by
  unfold Sys2Proof.Machine.step at e
  split at e
  · next c rest _ => exact k.exec c _ t (k.words _ _ (s.coreSame_pending rest) h) e
  · split at e
    · cases e
      exact k.takeFirstReport s h
    · split at e
      · exact k.exec _ s t h e
      · cases e
        exact k.microsecond s h

end KeptBySteps

end Sys2Proof.Machine
end

