-- ==== Sys2Proof/WellFormed.lean ====
section
/-! DEFINITION. When a term of Instr is a command of the part. -/
namespace Sys2Proof

/-- The codes that name a command are 1 to 23 (11_word_layouts.md §11.3, R153). -/
def namesCommand (code : Word) : Bool := 1 ≤ code.toNat && code.toNat ≤ 23

/-- UNKNOWN_COMMAND is the writing of a code that names no command (R145); every other operand is in its range by its
type. -/
def Instr.wellFormed : Instr → Bool
  | .frameHeader _ _ => true
  | .frameEnd _ => true
  | .writeWord _ _ => true
  | .slotFieldWrite _ _ => true
  | .configurationWrite _ _ => true
  | .eventFlagWrite _ _ => true
  | .eventEnableWrite _ _ => true
  | .watchedChannelWrite _ _ => true
  | .timestampLowRead _ => true
  | .counterLowWordRead _ _ _ => true
  | .recordFirstWordRead _ _ => true
  | .resultWordRead _ => true
  | .unknownCommand _ code => !namesCommand code
  | .openPort _ => true
  | .closePort _ => true
  | .resetPort _ => true
  | .post _ => true
  | .cancel _ => true
  | .trigger _ => true
  | .ackQueue _ => true
  | .releaseSlots _ => true
  | .popCompletion _ => true
  | .claimTimer _ => true
  | .setTimer _ => true
  | .startTimer _ => true
  | .stopTimer _ => true
  | .releaseTimer _ => true
  | .setLine _ => true
  | .lease _ => true
  | .endLease _ => true
  | .setProvisional _ => true
  | .dropProvisional _ => true
  | .commit _ => true
  | .burnFactory _ => true
  | .reload _ => true
  | .restartConverter _ => true
  | .deviceReset => true
  | .deviceResetEnd => true
  | .portResetLine _ => true
  | .portResetLineRelease _ => true
  | .lineInputChange _ _ => true
  | .lineQualificationEnd _ => true
  | .timerUnit _ => true
  | .timerExpiry _ => true
  | .grant => true
  | .startConversion _ => true
  | .converterDone _ => true
  | .doneTimeout => true
  | .cut _ => true
  | .timeWrap => true
  | .queueTimeoutTick _ => true
  | .queueTimeoutExpiry _ => true
  | .leaseExpiry => true
  | .storeWriteEnd _ => true
  | .storeReadEnd => true
  | .loadChannelEnd => true

end Sys2Proof
end

