-- ==== Sys2Proof/Tests/Slice0.lean ====
section
/-! SUPPORT. The model's own tests: well-formedness, small steps of every command, and for every statement with hypotheses
a state and operands that meet them, at the ends of their ranges. -/
namespace Sys2Proof.Tests
open Sys2Proof.Machine

/-! ### Helpers -/

/-- The state after a command. -/
def run (c : Instr) (s : State) : State :=
  match exec c s with
  | .next t => t
  | .fault _ => s
  | .refused _ => s

/-- The state after a step. -/
def stepped (s : State) : State :=
  match step s with
  | .next t => t
  | .fault _ => s
  | .refused _ => s

/-- A write frame of port `p` stands at address `a`. -/
def writing (p : Port) (a : BitVec 12) (s : State) : State :=
  s.updPort p fun ps => { ps with frame := some ⟨true, a, [], false⟩ }

/-- A read frame of port `p` stands at address `a`. -/
def reading (p : Port) (a : BitVec 12) (s : State) : State :=
  s.updPort p fun ps => { ps with frame := some ⟨false, a, [], false⟩ }

/-- Port `p` is OPEN. -/
def opened (p : Port) (s : State) : State := s.updPort p fun ps => { ps with mode := .opened }

/-- Port `p` is OPEN with these parameters and is about to write its command word. -/
def ready (p : Port) (a b c : Word) (s : State) : State :=
  s.updPort p fun ps => { ps with mode := .opened, params := ⟨a, b, c, 0⟩, frame := some ⟨true, 0x01C, [], false⟩ }

/-- The queue configuration of port `p`. -/
def queues (p : Port) (q0 q1 : QueueConfig) (s : State) : State :=
  s.updPort p fun ps => { ps with config := { ps.config with q0 := q0, q1 := q1 } }

/-- The state of slot `i`. -/
def stateOf (i : SlotId) (x : SlotState) (s : State) : State := s.updSlot i fun y => { y with state := x }

/-- The fields of slot `i`. -/
def fieldsOf (i : SlotId) (f : SlotFields → SlotFields) (s : State) : State :=
  s.updSlot i fun y => { y with fields := f y.fields }

/-- The answer of a command at port `p`. -/
def answer (p : Port) (s : State) : ResultCode := (s.port p).result.code

/-- The store is IDLE. -/
def storeReady (s : State) : State := { s with store := { s.store with op := .idle } }

/-- Port `p` holds the lease. -/
def leased (p : Port) (s : State) : State := { s with cal := { s.cal with lease := ⟨some p, 3, 7⟩ } }

/-- A provisional part of channel `ch`. -/
def trial (ch : Channel) (c : Coefficients) (s : State) : State :=
  s.updCalEntry ch fun e => { e with provisional := some c }

theorem ready_openAtCommand (p : Port) (a b c : Word) (s : State) : (ready p a b c s).OpenAtCommand p := by
  cases p <;> exact ⟨⟨_, rfl, rfl, rfl, rfl⟩, rfl⟩

theorem writing_atWord (p : Port) (a : BitVec 12) (s : State) : (writing p a s).AtWord p a := by
  cases p <;> exact ⟨_, rfl, rfl, rfl, rfl⟩

/-! ### Well-formedness -/

theorem test_wellFormed_unknown_24 : (Instr.unknownCommand .a 24).wellFormed = true := by decide
theorem test_wellFormed_unknown_0 : (Instr.unknownCommand .b 0).wellFormed = true := by decide
theorem test_illFormed_unknown_1 : (Instr.unknownCommand .a 1).wellFormed = false := by decide
theorem test_illFormed_unknown_23 : (Instr.unknownCommand .c 23).wellFormed = false := by decide

/-! ### Frames and words -/

theorem test_frameHeader : ((run (.frameHeader .a 0x8018) State.reset).port .a).frame = some ⟨true, 0x018, [], false⟩ := by decide
theorem test_frameHeader_within : run (.frameHeader .a 0x0000) (writing .a 5 State.reset) = writing .a 5 State.reset := by
  decide
theorem test_frameEnd : ((run (.frameEnd .a) (writing .a 5 State.reset)).port .a).frame = none := by decide
theorem test_writeWord_parameter :
    ((run (.writeWord .b 0xBEEF) (writing .b 0x01A State.reset)).port .b).params = ⟨0, 0, 0xBEEF, 0⟩ := by decide
theorem test_writeWord_wraps :
    ((run (.writeWord .b 1) (writing .b 0xFFF State.reset)).port .b).frame = some ⟨true, 0, [], false⟩ := by decide
theorem test_slotFieldWrite :
    ((run (.slotFieldWrite .b 0x3221) (writing .b 0x124 State.reset)).slot 9).fields.entryAt 0 = ⟨0x21, 2, 3⟩ := by decide
theorem test_slotFieldWrite_discarded :
    ((run (.slotFieldWrite .a 5) (writing .a 0x100 (stateOf 0 .armed State.reset))).port .a).flag .writeDiscarded = true := by
  decide
theorem test_configurationWrite :
    ((run (.configurationWrite .a 64) (writing .a 0x004 State.reset)).port .a).config.q1 = ⟨64, 0, 0⟩ := by decide
theorem test_configurationWrite_filter :
    tget ((run (.configurationWrite .c 0x9345) (writing .c 0x21E State.reset)).port .c).filters 15 =
      ⟨true, 1, 0, 0, 3, 5, 4⟩ := by decide
theorem test_eventFlagWrite :
    ((run (.eventFlagWrite .a 0x0008) (writing .a 0x011 (((State.reset.raise .a .loadDone).raise .a .q1Watermark)))).port
      .a).flags = 0x000008 := by decide
theorem test_eventEnableWrite :
    (run (.eventEnableWrite .a 0x0001) (writing .a 0x013 (State.reset.raise .a .leaseLost))).irqHigh .a = false := by decide
theorem test_watchedChannelWrite :
    ((run (.watchedChannelWrite .a 0x0001) (writing .a 0x981 (State.reset.updPort .a fun ps =>
      { ps with watched := 0x00030000 }))).port .a).watched = 0x00020000 := by decide
theorem test_timestampLowRead :
    let s := run (.timestampLowRead .a) (reading .a 0xA02 { State.reset with now := 0x1FFFF })
    ({ s with now := 0x20000 }).readWord .a 0xA03 = 1 := by decide
theorem test_counterLowWordRead :
    let s := (stateOf 7 .idle State.reset).updCounters 7 fun c => { c with triggersMissed := 0x50006 }
    (run (.counterLowWordRead .a 7 4) (reading .a 0x1FE s)).readWord .a 0x1FF = 5 := by decide
theorem test_recordFirstWordRead :
    ((run (.recordFirstWordRead .a (.latestSlot 15)) (reading .a 0x2B8 State.reset)).port .a).frame.map
      (fun f => f.captures.length) = some 5 := by decide
theorem test_resultWordRead :
    (run (.frameEnd .a) (run (.resultWordRead .a) (reading .a 0x01D State.reset))).readWord .a 0x01E = 0 := by decide

/-! ### Commands of a port -/

theorem test_unknownCommand :
    (run (.unknownCommand .a 24) (writing .a 0x01C State.reset)).readWord .a 0x01D = 0x011F := by decide
theorem test_openPort :
    let s := run (.openPort .b) (writing .b 0x01C (queues .b ⟨64, 1, 64⟩ ⟨0, 0, 0⟩ State.reset))
    answer .b s = .ok ∧ (s.port .b).mode = .opened ∧ s.poolUse = 64 := by decide
theorem test_openPort_badField :
    answer .b (run (.openPort .b) (writing .b 0x01C (queues .b ⟨64, 1, 65⟩ ⟨0, 0, 0⟩ State.reset))) = .badField := by decide
theorem test_closePort :
    let s := run (.closePort .a) (ready .a 0 0 0 (stateOf 3 .armed (leased .a State.reset)))
    answer .a s = .ok ∧ (s.slot 3).state = .idle ∧ s.cal.lease.holder = none ∧ (s.port .a).mode = .closed := by decide
theorem test_closePort_closed : answer .a (run (.closePort .a) (writing .a 0x01C State.reset)) = .closed := by decide
theorem test_resetPort :
    let s := run (.resetPort .c) (ready .c 1 2 3 (fieldsOf 16 (fun f => { f with tag := 9 }) State.reset))
    answer .c s = .ok ∧ (s.port .c).params = ⟨0, 0, 0, 0⟩ ∧ (s.slot 16).fields.tag = 0 := by decide

/-! ### Requests -/

/-- A request that a POST takes: shared, from line 0. -/
def shared (i : SlotId) (s : State) : State := fieldsOf i (fun f => { f with share := true, source := 5 }) s

theorem test_post :
    let s := run (.post .a) (ready .a 2 0 0 (shared 2 State.reset))
    answer .a s = .ok ∧ (s.slot 2).state = .armed := by decide
theorem test_post_immediate :
    let s := run (.post .a) (ready .a 2 0 0 (fieldsOf 2 (fun f => { f with share := true }) State.reset))
    (s.slot 2).state = .due ∧ (s.slot 2).dueStamp = 1 ∧ s.arbiter.stampOrder = [1] := by decide
theorem test_cancel :
    let s := run (.cancel .b) (ready .b 8 0 0 (stateOf 8 .armed State.reset))
    answer .b s = .ok ∧ (s.port .b).completions.map (fun r => r.outcome) = [.cancelled] := by decide
theorem test_cancel_cut :
    (run (.cancel .b) (ready .b 8 1 0 (stateOf 8 .running State.reset))).seq.cuts = [8] := by decide
theorem test_trigger :
    let s := run (.trigger .a) (ready .a 0 0 0 (stateOf 0 .armed (fieldsOf 0 (fun f => { f with source := 9 }) State.reset)))
    (s.slot 0).state = .due ∧ (s.slot 0).dueStamp = 1 := by decide
theorem test_trigger_draining :
    let s := run (.trigger .a) (ready .a 0 0 0 (stateOf 0 (.draining ⟨.cancel, false⟩)
      (fieldsOf 0 (fun f => { f with source := 9 }) State.reset)))
    (s.slot 0).counters.triggersMissed = 1 ∧ (s.port .a).flag .triggerMissed = false := by decide
theorem test_popCompletion_empty :
    answer .a (run (.popCompletion .a) (writing .a 0x01C State.reset)) = .empty := by decide

/-! ### Queues and latest-value slots -/

/-- Three entries, numbered from 65535, in Q0 of port A, whose size is 4 in OVERWRITE mode. -/
def threeEntries : State :=
  (queues .a ⟨4, 1, 0⟩ ⟨0, 0, 0⟩ State.reset).updPort .a fun ps =>
    { ps with ring0 := { ps.ring0 with put := 3, get := 0, fill := 3, nextNumber := 2, overwritten := 5 } }

theorem test_ackQueue :
    let r := ((run (.ackQueue .a) (ready .a 0 0 0 threeEntries)).port .a).ring0
    r.get = 2 ∧ r.fill = 1 ∧ r.overwritten = 0 := by decide
theorem test_ackQueue_stale :
    answer .a (run (.ackQueue .a) (ready .a 0 0xFFFA 0 threeEntries)) = .staleIndex ∧
    answer .a (run (.ackQueue .a) (ready .a 0 0xFFF9 0 threeEntries)) = .badIndex ∧
    answer .a (run (.ackQueue .a) (ready .a 0 2 0 threeEntries)) = .badIndex := by decide
theorem test_releaseSlots :
    let s := run (.releaseSlots .a) (ready .a 0x8000 0 0 (State.reset.updPort .a fun ps =>
      { ps with latest := Vector.replicate 16 ⟨SampleRecord.zero, true⟩ }))
    (tget (s.port .a).latest 15).newData = false ∧ (tget (s.port .a).latest 14).newData = true := by decide
theorem test_queueTimeoutTick :
    ((run (.queueTimeoutTick .a) (State.reset.updPort .a fun ps => { ps with timeout := ⟨5, .counting, 100⟩ })).port
      .a).timeout = ⟨4, .counting, 0⟩ := by decide
theorem test_queueTimeoutExpiry :
    let s := run (.queueTimeoutExpiry .a) (State.reset.updPort .a fun ps => { ps with timeout := ⟨0, .counting, 0⟩ })
    (s.port .a).timeout.state = .expired ∧ (s.port .a).flag .queueTimeout = true := by decide

/-! ### Timers and lines -/

/-- Timer `n` with this state. -/
def timerIs (n : Fin 4) (x : TimerState) (s : State) : State := s.updTimer n fun t => { t with state := x }

theorem test_claimTimer : ((run (.claimTimer .b) (ready .b 3 0 0 State.reset)).timer 3).state = .held .b := by decide
theorem test_setTimer_refused :
    answer .a (run (.setTimer .a) (ready .a 0 2 4 (timerIs 0 (.held .a) State.reset))) = .badField ∧
    answer .a (run (.setTimer .a) (ready .a 0 5 2 (timerIs 0 (.held .a) State.reset))) = .ok := by decide
theorem test_startTimer :
    let t := (run (.startTimer .a) (ready .a 0 0 0 (timerIs 0 (.held .a) State.reset))).timer 0
    t.state = .running .a ∧ t.count = 1000 ∧ t.phase = 0 := by decide
theorem test_stopTimer :
    ((run (.stopTimer .a) (ready .a 0 0 0 (timerIs 0 (.running .a) State.reset))).timer 0).state = .held .a := by decide
theorem test_releaseTimer :
    ((run (.releaseTimer .a) (ready .a 0 0 0 ((timerIs 0 (.running .a) State.reset).updTimer 0 fun t =>
      { t with refs := 1 }))).timer 0).state = .orphanedRunning := by decide
theorem test_timerUnit :
    ((run (.timerUnit 1) (State.reset.updTimer 1 fun t =>
      { t with state := .running .a, count := 2, prescaleInUse := 7, phase := 7 })).timer 1).count = 1 := by decide
theorem test_timerExpiry :
    let s := run (.timerExpiry 1) (stateOf 9 .armed (fieldsOf 9 (fun f => { f with source := 2 })
      (timerIs 1 .orphanedRunning State.reset)))
    (s.timer 1).count = 1000 ∧ (s.slot 9).state = .due := by decide
theorem test_setLine :
    let l := (run (.setLine .a) (ready .a 3 2 3 State.reset)).line 3
    l.edge = .both ∧ l.debounce = .ms1 := by decide
theorem test_lineInputChange :
    ((run (.lineInputChange 2 true) { State.reset with now := 10 }).line 2).candidate = some ⟨true, 14⟩ := by decide
theorem test_lineQualificationEnd :
    let s := run (.lineQualificationEnd 0) (stateOf 2 .armed (shared 2 (State.reset.updLine 0 fun l =>
      { l with input := true, candidate := some ⟨true, 0⟩ })))
    (s.line 0).level = true ∧ (s.slot 2).state = .due := by decide

/-! ### Calibration and the store -/

theorem test_lease :
    (run (.lease .a) (ready .a 255 0 0 State.reset)).cal.lease = ⟨some .a, 255, 25500000⟩ := by decide
theorem test_endLease :
    let s := run (.endLease .a) (ready .a 0 0 0 (trial 31 ⟨1, 2⟩ (leased .a State.reset)))
    s.cal.lease.holder = none ∧ (s.calEntry 31).provisional = none ∧ (s.port .a).flag .leaseLost = false := by decide
theorem test_setProvisional :
    let s := run (.setProvisional .a) (ready .a 31 7 1 (leased .a State.reset))
    (s.calEntry 31).provisional = some ⟨7, 1⟩ ∧ s.cal.lease.remaining = 300000 := by decide
theorem test_dropProvisional :
    answer .a (run (.dropProvisional .a) (ready .a 0 0 0 (leased .a State.reset))) = .notActive := by decide
theorem test_commit :
    let s := run (.commit .a) (ready .a 4 0 0 (storeReady (trial 4 ⟨1, 2⟩ (leased .a State.reset))))
    answer .a s = .accepted ∧ s.fieldRecord 4 = .invalid ∧ s.store.op = .writingField 4 ⟨1, 2⟩ := by decide
theorem test_burnFactory :
    let s := run (.burnFactory .a) (ready .a 4 0 0 (storeReady (trial 4 ⟨1, 2⟩ (leased .a State.reset))))
    answer .a s = .accepted ∧ s.factoryRecord 4 = .invalid ∧ (s.calEntry 4).commitPending = false := by decide
theorem test_reload :
    let s := run (.reload .a) (ready .a 4 0 0 (storeReady (trial 4 ⟨1, 2⟩ (leased .a State.reset))))
    answer .a s = .accepted ∧ (s.calEntry 4).provisional = none ∧ s.store.opEnd = 5000 := by decide
theorem test_leaseExpiry :
    let s := run .leaseExpiry { State.reset with cal := { State.reset.cal with lease := ⟨some .b, 1, 0⟩ } }
    s.cal.lease.holder = none ∧ (s.port .b).flag .leaseLost = true := by decide
theorem test_storeWriteEnd :
    let s := { run (.commit .a) (ready .a 4 0 0 (storeReady (trial 4 ⟨1, 2⟩ (leased .a State.reset)))) with now := 5000 }
    ((run (.storeWriteEnd true) s).calEntry 4) = ⟨⟨1, 2⟩, .field, none, false⟩ ∧
    ((run (.storeWriteEnd false) s).port .a).flag .storeFailed = true := by decide
theorem test_storeReadEnd :
    let s := { run (.reload .a) (ready .a 4 0 0 (storeReady (trial 4 ⟨1, 2⟩ (leased .a State.reset)))) with now := 5000 }
    ((run .storeReadEnd s).calEntry 4).source = .default := by decide
theorem test_loadChannelEnd :
    let s := run .loadChannelEnd { State.reset with now := 5000 }
    (s.calEntry 0).source = .default ∧ s.store.op = .loading 1 ∧ s.store.opEnd = 10000 := by decide
theorem test_calibrated :
    calibrated 1000 ⟨200, 16500⟩ = (806, false) ∧ calibrated 201 ⟨200, 8192⟩ = (1, false) ∧
    calibrated 199 ⟨200, 8192⟩ = (-1, false) ∧ calibrated 30000 ⟨BitVec.ofInt 16 (-10000), 16384⟩ = (32767, true) ∧
    calibrated (-32768) ⟨32767, 16384⟩ = (-32768, true) := by decide

/-! ### The converter -/

/-- The record of entry 0, repetition 0, of the first sweep of slot `i`, on channel 6 with one repetition. -/
def firstRecord (i : SlotId) : SweepRecord := ⟨i, 0, 0, 0, 6, 0, 1⟩

/-- Slot 2 runs a sweep of one entry for Q0 of port A, which is OPEN with a size of 4. -/
def oneSweep : State :=
  (opened .a (queues .a ⟨4, 0, 1⟩ ⟨0, 0, 0⟩ (stateOf 2 .running
    (fieldsOf 2 (fun f => { f with target := 1 }) State.reset))))

theorem test_grant :
    let s := run .grant (stateOf 2 .due oneSweep)
    (s.slot 2).state = .running ∧ s.seq.selectedChannel = some 0 ∧ s.seq.settledTime = 3 ∧ s.arbiter.lastGranted = .a := by
  decide
theorem test_startConversion :
    let s := run (.startConversion .atOnce) { oneSweep with now := 9, seq := { oneSweep.seq with
      selected := some (firstRecord 2), active := some ⟨2, 0⟩ } }
    s.seq.converting = some ⟨.sweep (firstRecord 2), 9⟩ ∧ s.seq.active = none ∧ s.seq.doneTimeout = some 29 := by decide
theorem test_converterDone :
    let s := run (.converterDone ⟨0xFFFF, .atOnce⟩) { oneSweep with seq := { oneSweep.seq with
      converting := some ⟨.sweep (firstRecord 2), 1⟩, buffer := none, doneTimeout := some 21 } }
    (s.slot 2).state = .idle ∧ (s.port .a).ring0.fill = 1 ∧ (tget (s.port .a).ring0.positions 0).record.overRange = true ∧
    s.seq.buffer = none ∧ (s.port .a).flag .q0Watermark = true := by decide
/-- A FLUSH's report that waits: a grant comes before it, and an empty queue takes it. -/
theorem test_converterDone_later :
    let s := run (.converterDone ⟨0xFFFF, .later⟩) (stateOf 1 .due { oneSweep with seq := { oneSweep.seq with
      converting := some ⟨.sweep (firstRecord 2), 1⟩, buffer := none, doneTimeout := some 21 } })
    s.seq.reports = [2] ∧ (s.slot 2).state = .running ∧ (s.port .a).ring0.fill = 1 ∧
    (let t := run .grant s
     (t.slot 1).state = .running ∧ (t.slot 2).state = .running ∧ ((stepped t).slot 2).state = .idle) := by decide
theorem test_doneTimeout :
    let s := run .doneTimeout { oneSweep with now := 21, seq := { oneSweep.seq with
      converting := some ⟨.sweep (firstRecord 2), 1⟩, buffer := none, doneTimeout := some 21 } }
    s.seq.link = .faulted ∧ (s.port .a).completions.map (fun r => r.outcome) = [.converterFault] := by decide
theorem test_restartConverter :
    let s := run (.restartConverter .b) (ready .b 0 0 0 { State.reset with seq := { State.reset.seq with
      link := .faulted, buffer := none } })
    answer .b s = .accepted ∧ s.seq.converting = some ⟨.dummy none, 0⟩ := by decide
theorem test_cut :
    let s := run (.cut 2) { stateOf 2 (.draining ⟨.cancel, true⟩) oneSweep with seq := { oneSweep.seq with
      selected := some (firstRecord 2), active := some ⟨2, 0⟩, cuts := [2] } }
    (s.slot 2).state = .idle ∧ s.seq.selected = none ∧ s.seq.cuts = [] := by decide
/-- A cut that starts a FLUSH, whose readout finishes the current entry: the posting ends in the CUT's own taking (R81). -/
theorem test_cut_flush :
    let s := run (.cut 2) (stateOf 2 (.draining ⟨.cancel, true⟩) (fieldsOf 2 (fun f => { f with scanLength := 2 })
      { oneSweep with seq := { oneSweep.seq with
        buffer := some ⟨.sweep (firstRecord 2), 0⟩, selected := some { firstRecord 2 with entry := 1 }, active := some ⟨2, 0⟩
        cuts := [2] } }))
    (s.slot 2).state = .idle ∧ s.seq.converting = some ⟨.flush none, 0⟩ ∧ s.seq.reports = [] ∧
    (s.port .a).ring0.fill = 1 ∧ (s.port .a).completions.map (fun r => r.outcome) = [.cancelled] := by decide
theorem test_timeWrap :
    let s := run .timeWrap { State.reset with now := 4294967295 }
    s.timestamp = 0 ∧ (s.port .c).flag .timeWrap = true := by decide

/-! ### Resets and steps -/

theorem test_deviceReset :
    let s := run .deviceReset (leased .a { State.reset with now := 77 })
    s.inReset = true ∧ s.now = 0 ∧ s.irqHigh .a = true ∧ s.cal.lease.holder = none := by decide
theorem test_deviceResetEnd :
    ((run .deviceResetEnd { State.reset.updLine 1 (fun l => { l with input := true }) with inReset := true }).line 1).level =
      true := by decide
theorem test_portResetLine :
    let s := run (.portResetLine .b) (writing .b 3 State.reset)
    (s.port .b).frame = none ∧ (run (.resetPort .b) s) = s ∧
    (let u := run (.frameHeader .b 0x8018) s
     run (.writeWord .b 7) u = u ∧ u.misoDriven .b = true ∧ u.readWord .b 0x000 = 0) := by decide
theorem test_portResetLine_meets :
    let s := run (.resetPort .b) (run (.portResetLine .b) (ready .b 1 2 3 State.reset))
    (s.port .b).result = ⟨.ok, 3, 1⟩ ∧ (s.port .b).frame = none ∧ (s.port .b).lineLow = true := by decide
theorem test_portResetLineRelease :
    ((run (.frameHeader .b 0) (run (.portResetLineRelease .b) (run (.portResetLine .b) State.reset))).port .b).frame =
      some ⟨false, 0, [], false⟩ := by decide
theorem test_step_command : stepped { State.reset with pending := [.frameEnd .a, .grant] } =
    { State.reset with pending := [.grant] } := by decide
theorem test_step_idle : stepped State.reset = { State.reset with now := 1 } := by decide
theorem test_decodeTableWord : decodeTableWord 16 0 = none := by decide

/-! ### Hypotheses of statements

For each statement with hypotheses, states that meet them; where a hypothesis has a range, at its ends. -/

theorem witness_TimePasses :
    (State.reset.pending = [] ∧ State.reset.seq.reports = [] ∧ State.reset.dueEvent = none ∧ State.reset.inReset = false) ∧
    (let s := { State.reset with seq := { State.reset.seq with reports := [2] } }
     s.pending = [] ∧ s.inReset = false ∧ s.seq.reports = 2 :: []) ∧
    ({ State.reset with now := 4294967295 } : State).timestamp = 4294967295 ∧ State.reset.timestamp ≠ 4294967295 := by decide

theorem witness_DeviceReset :
    State.reset.inReset = false ∧ ({ State.reset with inReset := true } : State).inReset = true := by decide

theorem witness_PortReset :
    (writing .c 0x01C State.reset).AtWord .c 0x01C ∧ ((writing .c 0x01C State.reset).port .c).mode = .closed ∧
    ((opened .c State.reset).port .c).mode = .opened ∧ (State.reset.port .a).lineLow = false ∧
    (let s := run (.portResetLine .b) (ready .b 1 2 3 State.reset)
     (s.port .b).lineLow = true ∧ (s.port .b).frame = none ∧ (s.port .b).lineCut = some s.now) ∧
    (run (.portResetLine .b) (writing .b 3 State.reset)).port .b ≠ (run (.portResetLine .b) (writing .b 28 State.reset)).port .b ∧
    (let s := run (.frameHeader .b 0x801C) (run (.portResetLine .b) State.reset)
     (s.port .b).frame = some ⟨true, 0x01C, [], true⟩) :=
  ⟨writing_atWord _ _ _, by decide⟩

theorem witness_FramesAndParameterWords :
    (State.reset.inReset = false ∧ (State.reset.port .a).frame = none) ∧
    (∀ a ∈ [0x018, 0x019, 0x01A, 0x01B, 0x000, 0xFFF], (writing .a a State.reset).AtWord .a a) ∧
    takesWrites 0x000 = false ∧ takesWrites 0x009 = false ∧ takesWrites 0x00F = false ∧ takesWrites 0x014 = false ∧
    takesWrites 0x017 = false ∧ takesWrites 0x01D = false ∧ takesWrites 0x114 = false ∧ takesWrites 0x1FF = false ∧
    takesWrites 0x221 = false ∧ takesWrites 0x97F = false ∧ takesWrites 0x982 = false ∧ takesWrites 0xFFF = false :=
  ⟨by decide, fun _ _ => writing_atWord _ _ _, by decide⟩

theorem witness_SlotFieldWrites :
    (writing .a 0x100 State.reset).AtWord .a (BitVec.ofNat 12 (0x100 + 32 * 0 + 0)) ∧
    (writing .c 0x1F3 State.reset).AtWord .c (BitVec.ofNat 12 (0x100 + 32 * 7 + 19)) ∧
    ((0 : SlotId).val = 8 * portCode .a + 0 ∧ (23 : SlotId).val = 8 * portCode .c + 7) ∧
    ((writing .c 0x1F3 State.reset).slot 23).state = .idle ∧
    ((writing .c 0x1F3 (stateOf 23 .armed State.reset)).slot 23).state ≠ .idle :=
  ⟨writing_atWord _ _ _, writing_atWord _ _ _, by decide⟩

theorem witness_ConfigurationWrites :
    (∀ a ∈ [0x001, 0x002, 0x003, 0x004, 0x005, 0x006, 0x007, 0x008, 0x200, 0x201, 0x21E, 0x21F, 0x220],
      (writing .a a State.reset).AtWord .a a) ∧
    ((writing .a 0x220 State.reset).port .a).mode = .closed ∧ ((writing .a 0x220 (opened .a State.reset)).port .a).mode =
      .opened ∧
    ((0x21E : BitVec 12).toNat = 0x200 + 2 * (15 : Fin 16).val ∧ (0x21F : BitVec 12).toNat = 0x201 + 2 * (15 : Fin 16).val) :=
  ⟨fun _ _ => writing_atWord _ _ _, by decide⟩

theorem witness_EventWords :
    ∀ a ∈ [0x010, 0x011, 0x012, 0x013, 0x980, 0x981], (writing .b a State.reset).AtWord .b a :=
  fun _ _ => writing_atWord _ _ _

/-- A frame at the read's own address; a frame that comes from the words of one queue position to the next position; a
capture that the frame holds already. -/
theorem witness_CapturingReads :
    (∀ a ∈ [0xA02, 0x01D, 0x116, 0x1FE, 0x400, 0x5F8, 0x600, 0x7F8, 0x240, 0x2B8],
      ((reading .b a State.reset).port .b).frame = some ⟨false, a, [], false⟩) ∧
    (∀ k, k < ((0x408 : BitVec 12) - 0x401).toNat → ((0x401 : BitVec 12) + BitVec.ofNat 12 k).toNat % 8 ≠ 0) ∧
    (let s := run (.recordFirstWordRead .b (.position .q0 1)) (run (.recordFirstWordRead .b (.position .q0 0))
      (reading .b 0x400 State.reset))
     (s.port .b).lineLow = false ∧ ((s.port .b).frame.map fun f => f.captures.map fun c => c.address) =
       some [0x409, 0x40A, 0x40B, 0x40C, 0x40D, 0x40E, 0x401, 0x402, 0x403, 0x404, 0x405, 0x406]) := by
  refine ⟨fun a _ => ?_, by decide, by decide⟩
  rfl

theorem witness_CommandsTurnedAway :
    (writing .a 0x01C State.reset).AtWord .a 0x01C ∧ ((writing .a 0x01C State.reset).port .a).mode = .closed ∧
    ((0 : Word).toNat = 0 ∧ 23 < (24 : Word).toNat) ∧
    (2, Instr.closePort .a) ∈ commandsForOpenPorts .a ∧ (23, Instr.restartConverter .a) ∈ commandsForOpenPorts .a :=
  ⟨writing_atWord _ _ _, by decide⟩

/-- A configuration of two queues of these sizes. -/
def sizes (a b : Word) : PortConfig := ⟨⟨a, 0, 0⟩, ⟨b, 1, b⟩, 2, 1⟩

theorem witness_OpenPort :
    (writing .a 0x01C State.reset).AtWord .a 0x01C ∧
    ((sizes 64 64).Valid ∧ ¬(sizes 65 0).Valid ∧ (PortConfig.reset).Valid ∧ ¬(PortConfig.Valid ⟨⟨0, 0, 0⟩, ⟨0, 0, 0⟩, 0, 0⟩)) ∧
    (let s := (opened .b (State.reset.updPort .b fun ps => { ps with config := sizes 64 64 }))
     s.poolUse + 128 = 256 ∧ (opened .c (s.updPort .c fun ps => { ps with config := sizes 64 1 })).poolUse + 64 = 257) :=
  ⟨writing_atWord _ _ _, by unfold PortConfig.Valid QueueConfig.Valid; decide, by decide⟩

/-- Slot 2 of port A and slot 8 of port B are RUNNING; A's record is selected and B's is converting. -/
def twoPorts : State :=
  opened .b { stateOf 8 .running oneSweep with seq := { oneSweep.seq with
    selected := some (firstRecord 2), active := some ⟨2, 0⟩, buffer := none
    converting := some ⟨.sweep (firstRecord 8), 0⟩, doneTimeout := some 20 } }

theorem witness_ClosePort :
    (∀ s, (ready .a 0 0 0 s).OpenAtCommand .a) ∧ (ready .a 0 0 0 twoPorts).ClosesWithoutFlush .a ∧
    (ready .a 0 0 0 (leased .a twoPorts)).HoldsLease .a ∧ ¬(ready .a 0 0 0 twoPorts).HoldsLease .a :=
  ⟨ready_openAtCommand .a 0 0 0, .inr (.inl (by decide)), by unfold State.HoldsLease; decide, by unfold State.HoldsLease; decide⟩

theorem witness_CloseReleasesTimers :
    (ready .a 0 0 0 State.reset).OpenAtCommand .a ∧ (ready .a 0 0 0 State.reset).RefsExact ∧
    (ready .a 0 0 0 State.reset).ClosesWithoutFlush .a :=
  ⟨ready_openAtCommand .a 0 0 0 _, by unfold State.RefsExact State.namingTimer; decide,
    .inl fun h => by
      obtain ⟨r, h, _⟩ := h
      have : (ready .a 0 0 0 State.reset).seq.selected = none := by decide
      rw [this] at h
      cases h⟩

/-- The same with B's result in the buffer and nothing converting: a CLOSE of port A starts a FLUSH. -/
def bWaits : State :=
  { twoPorts with seq := { twoPorts.seq with
      converting := none, buffer := some ⟨.sweep (firstRecord 8), 0⟩, doneTimeout := none } }

/-- It meets the premises of the FLUSH clauses of ClosePort and of CloseRetagsRecords. -/
theorem witness_CloseRetagsRecords_flush :
    (bWaits.port .a).mode = .opened ∧ bWaits.SelectedOf .a ∧ ¬bWaits.ClosesWithoutFlush .a := by
  have hs : bWaits.seq.selected = some (firstRecord 2) := by decide
  have hb : bWaits.seq.buffer = some ⟨.sweep (firstRecord 8), 0⟩ := by decide
  have hw : bWaits.SelectedOf .a := ⟨_, hs, by decide⟩
  refine ⟨by decide, hw, fun h => ?_⟩
  rcases h with h | h | h
  · exact h hw
  · exact h (by decide)
  · exact absurd (h _ _ hb) (by decide)

theorem test_closePort_flush :
    let s := run (.closePort .a) (ready .a 0 0 0 bWaits)
    s.seq.converting = some ⟨.flush none, 0⟩ ∧ s.seq.buffer = none ∧ s.seq.selected = none ∧
    (s.slot 8).counters.entriesProduced = 1 ∧ (s.slot 8).state = .running ∧ s.seq.reports = [8] ∧
    ((stepped s).slot 8).state = .idle := by decide

/-- Port B's sweep in the buffer was cut: the FLUSH of A's CLOSE ends its posting (R81). -/
theorem test_closePort_flush_cut :
    let s := run (.closePort .a) (ready .a 0 0 0 (stateOf 8 (.draining ⟨.cancel, true⟩) (fieldsOf 8 (fun f =>
      { f with scanLength := 2 }) (bWaits.updSlot 8 fun x => { x with truncatedAt := some 0 }))))
    (s.slot 8).state = .idle ∧ s.seq.reports = [] ∧ (s.port .b).completions.map (fun r => r.outcome) = [.cancelled] := by
  decide

/-- A completion that was read out before the CLOSE, and waits, is taken before the postings end (R88). -/
theorem test_closePort_completion :
    let s := run (.closePort .a) (ready .a 0 0 0 { oneSweep with seq := { oneSweep.seq with reports := [2, 8] } })
    (s.slot 2).state = .idle ∧ (s.slot 2).counters.sweepsDone = 1 ∧ (s.port .a).flag .completion = true ∧
    (s.port .a).completions = [] ∧ s.seq.reports = [8] := by decide

/-- A first conversion of port A that waits for its settle on an idle pipeline: its CLOSE starts no FLUSH. -/
theorem witness_CloseRetagsRecords_idle :
    let s := { oneSweep with seq := { oneSweep.seq with selected := some (firstRecord 2), active := some ⟨2, 0⟩ } }
    (s.port .a).mode = .opened ∧ s.SelectedOf .a ∧ s.seq.converting = none ∧ s.seq.buffer = some ⟨.stale, 0⟩ :=
  ⟨by decide, ⟨firstRecord 2, by decide, by decide⟩, by decide⟩

theorem witness_CloseRetagsRecords :
    (ready .a 0 0 0 twoPorts).OpenAtCommand .a ∧ (ready .a 0 0 0 twoPorts).ClosesWithoutFlush .a ∧
    (ready .a 0 0 0 twoPorts).seq.selected = some (firstRecord 2) ∧
    (ready .a 0 0 0 twoPorts).seq.converting = some ⟨.sweep (firstRecord 8), 0⟩ :=
  ⟨ready_openAtCommand .a 0 0 0 _, .inr (.inl (by decide)), by decide⟩

/-- Fields in their ranges that name timer 3; a priority out of range; a STALL request too long for its queue. -/
def paced : SlotFields := { SlotFields.reset with source := 4 }
def outOfRange : SlotFields := { SlotFields.reset with priority := 16 }
def tooLong : SlotFields := { SlotFields.reset with target := 1, policy := 1, scanLength := 5 }

theorem witness_PostChecksAndEffect_refused :
    (∀ n s, (ready .a n 0 0 s).OpenAtCommand .a) ∧
    (∀ i, ¬(ready .a 8 0 0 State.reset).NamesOwnSlot .a i) ∧ (∀ i, ¬(ready .a 24 0 0 State.reset).NamesOwnSlot .a i) ∧
    (ready .a 7 0 0 State.reset).NamesOwnSlot .a 7 ∧ paced.Valid ∧ ¬outOfRange.Valid ∧ ¬State.reset.SourceUsable paced ∧
    State.reset.SourceUsable SlotFields.reset ∧ ¬(State.reset.port .a).TargetUsable SlotFields.reset ∧
    (oneSweep.port .a).TargetUsable tooLong ∧ ¬(oneSweep.port .a).PolicyUsable tooLong := by
  unfold State.NamesOwnSlot SlotFields.Valid ScanEntry.Valid State.SourceUsable PortState.TargetUsable PortState.PolicyUsable
  refine ⟨fun n s => ready_openAtCommand .a n 0 0 s, ?_, ?_, ?_, ?_, ?_, ?_, ?_, ?_, ?_, ?_⟩ <;> decide

/-- The fields of a STALL request for Q0, whose scan length is 4. -/
def stallFields (f : SlotFields) : SlotFields :=
  { f with target := 1, policy := 1, scanLength := 4, source := 4 }

theorem witness_PostChecksAndEffect_taken :
    let s := ready .a 7 0 0 (fieldsOf 7 stallFields (timerIs 3 (.held .b) oneSweep))
    s.OpenAtCommand .a ∧ s.NamesOwnSlot .a 7 ∧ (s.slot 7).state = .idle ∧ (s.slot 7).fields.Valid ∧
    s.SourceUsable (s.slot 7).fields ∧ (s.port .a).TargetUsable (s.slot 7).fields ∧
    (s.port .a).PolicyUsable (s.slot 7).fields ∧ (s.slot 7).fields.source.toNat = (3 : Fin 4).val + 1 := by
  refine ⟨ready_openAtCommand .a _ _ _ _, ?_⟩
  unfold State.NamesOwnSlot SlotFields.Valid ScanEntry.Valid State.SourceUsable PortState.TargetUsable PortState.PolicyUsable
  decide

theorem witness_PostChecksAndEffect_stamp :
    Arbiter.reset.stampOrder.length ≤ 24 ∧ (⟨[1, 65535], 65534, .a⟩ : Arbiter).newStamp = 2 := by decide

theorem witness_PostingEnds :
    (twoPorts.slot 2).state ≠ .idle ∧ (twoPorts.port .a).completions.length < 16 := by decide

theorem witness_SweepEnds :
    let x := twoPorts.slot 2
    x.state = .running ∧ (x.fields.sweepCount.toNat ≠ 0 ∧ (x.counters.sweepsDone + 1).toNat = x.fields.sweepCount.toNat) ∧
    ((stateOf 2 (.draining ⟨.overrun, true⟩) twoPorts).slot 2).state = .draining ⟨.overrun, true⟩ := by decide

theorem witness_Cancel :
    let s := fun mode x => ready .a 2 mode 0 (stateOf 2 x twoPorts)
    (∀ mode x, (s mode x).OpenAtCommand .a) ∧ (s 1 .due).NamesOwnSlot .a 2 ∧
    (∀ i, ¬(ready .a 8 0 0 State.reset).NamesOwnSlot .a i) ∧ ((s 1 .due).port .a).params.p1.toNat ≤ 1 ∧
    1 < ((s 2 .due).port .a).params.p1.toNat ∧ ((s 0 (.draining ⟨.cancel, true⟩)).slot 2).state = .draining ⟨.cancel, true⟩ := by
  refine ⟨fun m x => ready_openAtCommand .a _ _ _ _, ?_⟩
  unfold State.NamesOwnSlot
  decide

theorem witness_Trigger :
    let s := fun x => ready .a 7 0 0 (stateOf 7 x (fieldsOf 7 (fun f => { f with source := 9, strict := true }) State.reset))
    (∀ x, (s x).OpenAtCommand .a) ∧ (s .due).NamesOwnSlot .a 7 ∧ (∀ i, ¬(ready .a 8 0 0 State.reset).NamesOwnSlot .a i) ∧
    ((s .due).slot 7).fields.source.toNat = 9 ∧ ((s .due).slot 7).state = .due ∧ ((s .due).slot 7).pendingTrigger = false := by
  refine ⟨fun x => ready_openAtCommand .a _ _ _ _, ?_⟩
  unfold State.NamesOwnSlot
  decide

theorem witness_PopAndRelease :
    (writing .a 0x01C State.reset).AtWord .a 0x01C ∧ ((writing .a 0x01C State.reset).port .a).completions = [] ∧
    (((run (.cancel .b) (ready .b 8 0 0 (stateOf 8 .armed State.reset))).port .b).completions.length = 1) ∧
    (ready .a 0 0 0 State.reset).OpenAtCommand .a :=
  ⟨writing_atWord _ _ _, by decide, by decide, ready_openAtCommand _ _ _ _ _⟩

theorem witness_AckQueue :
    let d := fun w : Word => (w - (2 - BitVec.ofNat 16 3)).toNat
    let behind := fun w : Word => ((2 - BitVec.ofNat 16 3) - w).toNat
    (∀ w, (ready .a 0 w 0 threeEntries).OpenAtCommand .a) ∧ 1 < ((ready .a 2 0 0 threeEntries).port .a).params.p0.toNat ∧
    (d 65535 = 0 ∧ d 1 = 2) ∧ (3 ≤ d 2 ∧ ¬(1 ≤ behind 2 ∧ behind 2 ≤ 5)) ∧ (3 ≤ d 65534 ∧ behind 65534 = 1) ∧
    (behind 65530 = 5 ∧ behind 65529 = 6) :=
  ⟨fun w => ready_openAtCommand _ _ _ _ _, by decide⟩

theorem witness_CountersFall :
    (let c : TimeoutCounter := ⟨1, .counting, 100⟩; c.state = .counting ∧ 100 ≤ c.elapsed ∧ 0 < c.value) ∧
    (let c : TimeoutCounter := ⟨1, .counting, 99⟩; c.elapsed < 100) ∧
    (let c : TimeoutCounter := ⟨0, .counting, 0⟩; c.state = .counting ∧ c.value = 0) ∧
    ((timerIs 3 .orphanedRunning State.reset).timer 3).state = .orphanedRunning ∧
    (let t : Timer := { Timer.reset with state := .running .a, count := 1, phase := 1 }
     t.prescaleInUse ≤ t.phase ∧ 0 < t.count) := by decide

theorem witness_QueueStore : (PortState.reset false).ring0.put < 64 ∧
    (let r : Ring := { Ring.empty with put := 63, fill := 63 }; r.put < 64) := by decide

theorem witness_StoreWithoutReservation :
    (threeEntries.port .a).ring0.get < 64 ∧
    (((threeEntries.port .a).queueConfig .q0).mode = 1 ∧ (threeEntries.port .a).ring0.fill < 4) ∧
    (((oneSweep.port .a).queueConfig .q0).mode ≠ 1 ∧
      (oneSweep.port .a).ring0.fill + (oneSweep.port .a).ring0.reserved < 4) ∧
    ((oneSweep.port .a).queueConfig .q1).size.toNat = 0 := by decide

/-- A sample of slot 2. -/
def aSample : Sample := ⟨2, 0, 15, 6, 100, false, 0⟩

theorem witness_SampleDelivery :
    (oneSweep.slot aSample.slot).fields.target.toNat = 1 ∧ (oneSweep.slot aSample.slot).fields.policy.toNat = 0 ∧
    (oneSweep.slot aSample.slot).held = 0 ∧
    (let s := (fieldsOf 2 (fun f => { f with policy := 1 }) oneSweep).updSlot 2 fun y => { y with held := 1 }
     (s.slot 2).fields.policy.toNat = 1 ∧ 0 < (s.slot 2).held ∧ ((s.port .a).ring .q0).fill < ((s.port .a).queueConfig .q0).size.toNat) ∧
    (let s := fieldsOf 2 (fun f => { f with target := 3 }) oneSweep
     (s.slot 2).fields.target.toNat = 3 ∧ (s.slot 2).fields.base.toNat + aSample.entry = (15 : Fin 16).val ∧
     (tget (s.port .a).latest 15).newData = false) ∧
    (oneSweep.slot 2).fields.share = false ∧ ((shared 2 oneSweep).slot 2).fields.share = true := by decide

theorem witness_SharedDelivery :
    let f : FilterElement := ⟨true, 0, 6, 6, 1, 5, 15⟩
    let rec' := { SampleRecord.zero with channel := 6 }
    f.accepts rec'.sourcePort = true ∧ f.kindMatches rec'.channel rec'.tag = true ∧ f.action.toNat ≤ 5 ∧
    (tget (PortState.reset false).latest ⟨f.slot.toNat, f.slot.isLt⟩).newData = false ∧
    (∀ j, ¬(tget (PortState.reset false).filters j).enabled = true) := by decide

theorem witness_CopyChoosesCoefficients :
    (oneSweep.slot 2).fields.raw = false ∧ (leased .a oneSweep).HoldsLease .a ∧
    ((trial 6 ⟨1, 2⟩ oneSweep).calEntry aSample.channel).provisional = some ⟨1, 2⟩ ∧
    (oneSweep.calEntry 6).source = .loading := by
  unfold State.HoldsLease
  decide

theorem witness_ClaimTimer :
    (∀ n, (ready .b n 0 0 State.reset).OpenAtCommand .b) ∧ (ready .b 3 0 0 State.reset).NamesNumber .b 3 ∧
    3 < ((ready .b 4 0 0 State.reset).port .b).params.p0.toNat ∧ (State.reset.timer 3).state = .free ∧
    (State.reset.timer 3).state.owner ≠ some .b := by
  refine ⟨fun n => ready_openAtCommand _ _ _ _ _, ?_⟩
  unfold State.NamesNumber
  decide

theorem witness_SetStartStopTimer :
    let s := ready .b 3 256 65535 (timerIs 3 (.held .b) State.reset)
    s.OpenAtCommand .b ∧ s.NamesNumber .b 3 ∧ (s.timer 3).state = .held .b ∧
    (let refused := fun a b : Nat => a < 1 ∨ 256 < a ∨ b < 2 ∨ 65535 < b ∨ a * b < 10
     ¬refused 256 65535 ∧ ¬refused 1 10 ∧ ¬refused 5 2 ∧ refused 0 10 ∧ refused 257 2 ∧ refused 10 1 ∧ refused 2 4) := by
  refine ⟨ready_openAtCommand _ _ _ _ _, ?_⟩
  unfold State.NamesNumber
  decide

theorem witness_ReleaseTimer :
    let s := ready .b 0 0 0 ((timerIs 0 (.running .b) State.reset).updTimer 0 fun t => { t with refs := 1 })
    s.OpenAtCommand .b ∧ s.NamesNumber .b 0 ∧ (s.timer 0).state = .running .b ∧ 0 < (s.timer 0).refs := by
  refine ⟨ready_openAtCommand _ _ _ _ _, ?_⟩
  unfold State.NamesNumber
  decide

/-- Timer 3 counts, its count is 0, and slot 9 names it in this state with its pending trigger set. -/
def expiring (x : SlotState) (strict : Bool) : State :=
  (stateOf 9 x (fieldsOf 9 (fun f => { f with source := 4, strict := strict })
    (timerIs 3 .orphanedRunning State.reset))).updSlot 9 fun y => { y with pendingTrigger := true }

theorem witness_TimerExpiry :
    ((expiring .due true).timer 3).state = .orphanedRunning ∧ ((expiring .due true).timer 3).count = 0 ∧
    ((expiring .due true).slot 9).state = .due ∧ ((expiring .due true).slot 9).fields.strict = true ∧
    ∀ j : SlotId, j ≠ 9 → ((expiring .due true).slot j).fields.source.toNat = (3 : Fin 4).val + 1 →
      ((expiring .due true).slot j).state = .idle := by
  refine ⟨?_, ?_, ?_, ?_, ?_⟩ <;> decide

/-- A strict overrun ends its posting beside a request that becomes DUE and one that drains. -/
theorem test_timerExpiry_ends :
    let also := fun (i : SlotId) (x : SlotState) (s : State) =>
      (stateOf i x (fieldsOf i (fun f => { f with source := 4, strict := true }) s)).updSlot i fun y =>
        { y with pendingTrigger := true }
    let s := run (.timerExpiry 3) (also 11 .armed (also 12 .running (expiring .due true)))
    (s.slot 9).state = .idle ∧ (s.slot 11).state = .due ∧
    (s.slot 12).state = .draining ⟨.overrun, false⟩ ∧ (s.port .b).flag .triggerMissed = true := by
  refine ⟨?_, ?_, ?_, ?_⟩ <;> decide

theorem witness_TriggerLines_set :
    let s := fun a b c => ready .a a b c State.reset
    (∀ a b c, (s a b c).OpenAtCommand .a) ∧ (s 3 2 3).NamesNumber .a 3 ∧
    (((s 3 2 3).port .a).params.p1.toNat = EdgeSetting.code .both ∧
      ((s 3 2 3).port .a).params.p2.toNat = Debounce.code .ms1) ∧
    (3 < ((s 4 0 0).port .a).params.p0.toNat ∧ 2 < ((s 0 3 0).port .a).params.p1.toNat ∧
      3 < ((s 0 0 4).port .a).params.p2.toNat) ∧
    ∃ i, ((stateOf 9 .armed (shared 9 State.reset)).slot i).state ≠ .idle ∧
      ((stateOf 9 .armed (shared 9 State.reset)).slot i).fields.source.toNat = (0 : Fin 4).val + 5 := by
  refine ⟨fun a b c => ready_openAtCommand _ _ _ _ _, ?_⟩
  unfold State.NamesNumber
  decide

theorem witness_TriggerLines_change :
    let l := State.reset.line 0
    State.reset.inReset = false ∧ l.input ≠ true ∧ l.level ≠ true ∧ l.debounce ≠ .none ∧ l.candidate = none := by decide

theorem witness_LeaseBeginsAndEnds :
    (∀ d, (ready .a d 0 0 State.reset).OpenAtCommand .a) ∧ (leased .a State.reset).HoldsLease .a ∧
    State.reset.cal.lease.holder = none ∧ ((0 : Word).toNat < 1 ∧ 255 < (256 : Word).toNat) ∧
    (∃ q, q ≠ Port.a ∧ (leased .b State.reset).HoldsLease q) ∧ (leased .a State.reset).cal.lease.remaining ≠ 0 :=
  ⟨fun _ => ready_openAtCommand _ _ _ _ _, rfl, by decide, by decide, ⟨.b, by decide, rfl⟩, by decide⟩

theorem witness_ProvisionalCoefficients :
    (∀ n g, (ready .a n 0 g State.reset).OpenAtCommand .a) ∧ (ready .a 31 0 1 State.reset).NamesChannel .a 31 ∧
    31 < ((ready .a 32 0 1 State.reset).port .a).params.p0.toNat ∧ ((ready .a 0 0 0 State.reset).port .a).params.p2 = 0 ∧
    (leased .a State.reset).HoldsLease .a ∧ ¬State.reset.HoldsLease .a := by
  refine ⟨fun _ _ => ready_openAtCommand _ _ _ _ _, ?_⟩
  unfold State.NamesChannel State.HoldsLease
  decide

theorem witness_StoreCommandsRefused :
    let s := ready .a 31 0 0 (trial 31 ⟨1, 2⟩ (leased .a State.reset))
    s.OpenAtCommand .a ∧ s.NamesChannel .a 31 ∧ s.HoldsLease .a ∧ (s.calEntry 31).provisional ≠ none ∧
    s.store.op ≠ .idle ∧ s.factoryRecord 31 = .unwritten ∧ (s.setFactoryRecord 31 .invalid).factoryRecord 31 ≠ .unwritten := by
  refine ⟨ready_openAtCommand _ _ _ _ _, ?_⟩
  unfold State.NamesChannel State.HoldsLease
  decide

theorem witness_StoreCommandsAccepted :
    let s := ready .a 31 0 0 (storeReady (trial 31 ⟨1, 2⟩ (leased .a State.reset)))
    s.OpenAtCommand .a ∧ s.NamesChannel .a 31 ∧ s.HoldsLease .a ∧ s.store.op = .idle ∧
    (s.calEntry 31).provisional = some ⟨1, 2⟩ ∧ s.factoryRecord 31 = .unwritten := by
  refine ⟨ready_openAtCommand _ _ _ _ _, ?_⟩
  unfold State.NamesChannel State.HoldsLease
  decide

theorem witness_StoreEnds :
    let after := fun c => ({ run c (ready .a 31 0 0 (storeReady (trial 31 ⟨1, 2⟩ (leased .a State.reset)))) with
      now := 5000 } : State)
    ((after (.commit .a)).store.opEnd ≤ 5000 ∧ (after (.commit .a)).store.op = .writingField 31 ⟨1, 2⟩ ∧
      (after (.commit .a)).cal.commit = some ⟨.commit ⟨1, 2⟩, 31, .a⟩) ∧
    ((after (.burnFactory .a)).store.op = .writingFactory 31 ⟨1, 2⟩ ∧
      (after (.burnFactory .a)).cal.commit = some ⟨.burnFactory ⟨1, 2⟩, 31, .a⟩) ∧
    ((after (.reload .a)).store.op = .reading 31 ∧ (after (.reload .a)).cal.commit = some ⟨.reload, 31, .a⟩) ∧
    State.reset.store.op = .loading 0 ∧ State.reset.inReset = false := by decide

theorem witness_GrantGoesToThePreferred :
    let s := stateOf 2 .due oneSweep
    (s.seq.selected = none ∧ s.seq.active = none ∧ s.seq.link = .ready) ∧ (s.slot 2).state = .due ∧
    (∀ j, (s.slot j).state = .due → s.RoomFor j) ∧ ∀ j, j ≠ 2 → (s.slot j).state = .due → s.Preferred 2 j := by
  unfold State.RoomFor State.Preferred
  decide

/-- A STALL winner, whose scan of 4 fits its queue. -/
theorem witness_GrantGoesToThePreferred_stall :
    let s := stateOf 2 .due (fieldsOf 2 stallFields oneSweep)
    (s.seq.selected = none ∧ s.seq.active = none ∧ s.seq.link = .ready) ∧ (s.slot 2).state = .due ∧
    (s.slot 2).fields.policy.toNat = 1 ∧ (s.slot 2).fields.target.toNat = 1 ∧
    (∀ j, (s.slot j).state = .due → s.RoomFor j) ∧ ∀ j, j ≠ 2 → (s.slot j).state = .due → s.Preferred 2 j := by
  unfold State.RoomFor State.Preferred
  decide

theorem test_grant_reserves :
    let s := run .grant (stateOf 2 .due (fieldsOf 2 stallFields oneSweep))
    (s.slot 2).held = 4 ∧ (s.port .a).ring0.reserved = 4 := by decide

/-- Slot 2 is DUE with a scan too long for its queue; slot 8 is DUE too, at the lowest priority. -/
def full : State :=
  stateOf 8 .due (fieldsOf 8 (fun f => { f with priority := 16 }) (stateOf 2 .due (fieldsOf 2 (fun f =>
    { f with policy := 1, scanLength := 5 }) oneSweep)))

theorem witness_GrantStalls :
    (full.seq.selected = none ∧ full.seq.active = none ∧ full.seq.link = .ready) ∧
    (∀ j, ((stateOf 8 .idle full).slot j).state = .due → ¬(stateOf 8 .idle full).RoomFor j) ∧
    ((full.slot 8).state = .due ∧ full.RoomFor 8 ∧ full.Preferred 2 8) ∧
    ∀ j, (full.slot j).state = .due → full.Preferred j 8 → ¬full.RoomFor j := by
  unfold State.RoomFor State.Preferred
  dsimp only
  refine ⟨?_, ?_, ?_, ?_⟩ <;> decide

/-- Slot 2 fails its room check, and slot 3, of a lower preference, is a STALL winner whose scan of 4 fits the queue. -/
def stallsThenReserves : State :=
  stateOf 3 .due (fieldsOf 3 stallFields (stateOf 2 .due (fieldsOf 2 (fun f =>
    { stallFields f with priority := 14, scanLength := 5 }) oneSweep)))

theorem witness_GrantStalls_reserves :
    let s := stallsThenReserves
    (s.seq.selected = none ∧ s.seq.active = none ∧ s.seq.link = .ready) ∧ (s.slot 3).state = .due ∧ s.RoomFor 3 ∧
    ((s.slot 2).state = .due ∧ s.Preferred 2 3 ∧ ¬s.RoomFor 2) ∧
    (∀ j, (s.slot j).state = .due → s.Preferred j 3 → ¬s.RoomFor j) ∧
    (s.slot 3).fields.policy.toNat = 1 ∧ (s.slot 3).fields.target.toNat = 1 := by
  unfold State.RoomFor State.Preferred
  dsimp only
  refine ⟨?_, ?_, ?_, ?_, ?_, ?_⟩ <;> decide

theorem test_grant_stalls :
    let s := run .grant (fieldsOf 8 (fun f => { f with priority := 1 }) full)
    (s.slot 8).state = .running ∧ s.seq.active = some ⟨8, 0⟩ := by decide

theorem test_grant_stalls_reserves :
    let s := run .grant stallsThenReserves
    (s.slot 2).state = .stalled ∧ (s.slot 3).held = 4 ∧ (s.port .a).ring0.reserved = 4 := by decide

theorem witness_StartConversion :
    let s := { oneSweep with seq := { oneSweep.seq with selected := some (firstRecord 2), active := some ⟨2, 0⟩ } }
    s.seq.selected = some (firstRecord 2) ∧ s.seq.converting = none ∧ s.seq.settledTime ≤ s.now ∧
    (s.readout none).2 = none := by decide

theorem witness_RefillAndSettle :
    (let r := { firstRecord 2 with count := 2 }; r.repetition + 1 < r.count) ∧
    (let r := firstRecord 2; r.count ≤ r.repetition + 1 ∧ r.entry + 1 = (oneSweep.slot 2).fields.scanLength.toNat) := by decide

theorem witness_Readout :
    let s := { oneSweep with seq := { oneSweep.seq with buffer := some ⟨.sweep (firstRecord 2), 0⟩ } }
    (∀ r start, oneSweep.seq.buffer ≠ some ⟨.sweep r, start⟩) ∧ s.seq.buffer = some ⟨.sweep (firstRecord 2), 0⟩ ∧
    (firstRecord 2).repetition = 0 ∧ (firstRecord 2).count = 1 ∧
    (firstRecord 2).entry + 1 = (s.slot 2).fields.scanLength.toNat := by
  refine ⟨fun r start h => ?_, by decide⟩
  have h' : oneSweep.seq.buffer = some ⟨.stale, 0⟩ := by decide
  rw [h'] at h
  simp at h

theorem witness_ConverterDone :
    State.reset.seq.converting = none ∧ twoPorts.seq.converting = some ⟨.sweep (firstRecord 8), 0⟩ ∧ twoPorts.seq.link ≠ .restarting ∧
    twoPorts.seq.selected ≠ none ∧
    (let s := run (.restartConverter .b) (ready .b 0 0 0 { State.reset with seq := { State.reset.seq with
      link := .faulted, buffer := none } })
     s.seq.link = .restarting ∧ s.seq.selected = none ∧ s.seq.converting = some ⟨.dummy none, 0⟩) := by decide

theorem witness_ConverterFault :
    let s := { twoPorts with now := 20 }
    s.seq.converting = some ⟨.sweep (firstRecord 8), 0⟩ ∧ s.seq.doneTimeout = some 20 ∧ 20 ≤ s.now ∧
    s.seq.link = .ready := by decide

theorem witness_RestartConverter :
    let s := ready .b 0 0 0 { State.reset with seq := { State.reset.seq with link := .faulted, buffer := none } }
    s.OpenAtCommand .b ∧ s.seq.link = .faulted ∧ (ready .b 0 0 0 State.reset).seq.link ≠ .faulted ∧
    (let t := { run (.restartConverter .b) s with now := 20 }
     t.seq.link = .restarting ∧ t.seq.doneTimeout = some 20 ∧ 20 ≤ t.now) :=
  ⟨ready_openAtCommand _ _ _ _ _, by decide⟩

theorem witness_CutTaken :
    let s := { twoPorts with seq := { twoPorts.seq with cuts := [2] } }
    2 ∈ s.seq.cuts ∧ s.seq.selected = some (firstRecord 2) ∧ s.seq.currentEntry 2 = none ∧ s.seq.converting ≠ none ∧
    (let t := { twoPorts with seq := { twoPorts.seq with cuts := [8] } }
     8 ∈ t.seq.cuts ∧ t.seq.currentEntry 8 = some 0 ∧ 0 + 1 = (t.slot 8).fields.scanLength.toNat) := by decide

/-- A cut of an unstarted sweep with nothing converting: over a STALE buffer record, and over another sweep's. -/
theorem witness_CutTaken_unstarted :
    (let s := { oneSweep with seq := { oneSweep.seq with selected := some (firstRecord 2), active := some ⟨2, 0⟩, cuts := [2] } }
     2 ∈ s.seq.cuts ∧ s.seq.selected = some (firstRecord 2) ∧ s.seq.currentEntry 2 = none ∧ s.seq.converting = none ∧
     s.seq.buffer = some ⟨.stale, 0⟩) ∧
    (let s := { bWaits with seq := { bWaits.seq with cuts := [2] } }
     2 ∈ s.seq.cuts ∧ s.seq.selected = some (firstRecord 2) ∧ s.seq.currentEntry 2 = none ∧ s.seq.converting = none ∧
     s.seq.buffer = some ⟨.sweep (firstRecord 8), 0⟩ ∧ s.seq.currentEntry 8 = some 0) := by decide

/-- The window's own conditions: a queue position below the size and one beyond it, a completion position below the count
and one from the count on, an unassigned address. -/
theorem witness_WindowWords :
    let s := run (.cancel .a) (ready .a 3 0 0 (stateOf 3 .armed (queues .a ⟨4, 0, 0⟩ ⟨0, 0, 0⟩ State.reset)))
    (s.port .a).completions.length = 1 ∧ ((s.port .a).queueConfig .q0).size.toNat = 4 ∧
    (s.port .a).result.code = .ok ∧ (State.reset.port .a).frame = none ∧ (State.reset.port .a).lineLow = false ∧
    (23 : SlotId).val = 8 * 2 + 7 := by decide

theorem test_windowWords :
    let s := run (.cancel .a) (ready .a 3 0 0 (stateOf 3 .armed (queues .a ⟨4, 0, 0⟩ ⟨0, 0, 0⟩ State.reset)))
    s.windowWord .a 0x01D = 0x0100 ∧ s.windowWord .a 0x01E = 5 ∧ s.windowWord .a 0x810 = 0x0203 ∧
    s.windowWord .a 0x820 = 0 ∧ s.windowWord .a 0x420 = 0 ∧ s.windowWord .a 0x00B = 0 ∧ s.windowWord .a 0x010 = 0x0400 ∧
    s.windowWord .a 0xB02 = 0 ∧ s.windowWord .a 0xB01 = 0x4000 ∧ s.windowWord .b 0xA04 = 1 := by decide

theorem witness_SharedViewWords :
    ((trial 31 ⟨1, 2⟩ State.reset).calEntry 31).provisional = some ⟨1, 2⟩ ∧
    (State.reset.calEntry 31).provisional = none := by decide

/-- Port A is OPEN with a queue of 4, holds the lease, and its slot 2 waits ARMED for timer 0, which B owns. -/
def live : State :=
  opened .b (timerIs 0 (.held .b) (run (.post .a) (ready .a 2 0 0 (leased .a (fieldsOf 2 (fun f =>
    { stallFields f with source := 1 }) ((timerIs 0 (.held .b) (stateOf 2 .idle oneSweep))))))))

theorem witness_StepKeepsPool : live.PoolHolds ∧ ∃ t, step live = .next t := by
  refine ⟨⟨by decide, fun p => ?_⟩, _, rfl⟩
  unfold PortConfig.Valid QueueConfig.Valid
  cases p <;> decide

theorem witness_StepKeepsCounts : live.CountsInRange ∧ ∃ t, step live = .next t := by
  refine ⟨⟨fun p => ?_, fun p q => ?_, by decide, by decide, by decide⟩, _, rfl⟩
  · cases p <;> decide
  · cases p <;> cases q <;> decide

theorem witness_StepKeepsClosedEmpty : live.ClosedOwnsNothing ∧ ∃ t, step live = .next t := by
  refine ⟨⟨by decide, fun n p => ?_, fun p => ?_, by decide⟩, _, rfl⟩
  · revert n
    cases p <;> decide
  · cases p <;> decide

theorem witness_StepKeepsRoom : live.RoomHolds ∧ ∃ t, step live = .next t := by
  refine ⟨⟨by unfold PortState.PolicyUsable; decide, fun p q => ?_⟩, _, rfl⟩
  cases p <;> cases q <;> decide

theorem witness_StepKeepsRings : live.RingsHold ∧ ∃ t, step live = .next t := by
  refine ⟨⟨by decide, by decide, fun p h => ⟨?_, fun q => ?_⟩⟩, _, rfl⟩
  · unfold PortConfig.Valid QueueConfig.Valid
    revert h
    cases p <;> decide
  · dsimp only
    revert h
    cases p <;> cases q <;> decide

theorem witness_StepKeepsRefs : live.RefsExact ∧ ∃ t, step live = .next t :=
  ⟨by unfold State.RefsExact State.namingTimer; decide, _, rfl⟩

/-- Slot 2 is DUE with the stamp 1, which an IMMEDIATE POST gave it. -/
def waiting : State := run (.post .a) (ready .a 2 0 0 (stateOf 2 .idle oneSweep))

theorem witness_StepKeepsStamps : waiting.StampsExact ∧ (waiting.slot 2).state = .due ∧ ∃ t, step waiting = .next t := by
  refine ⟨⟨by decide, by decide, by decide, fun w => ⟨fun h => ⟨2, by decide, ?_⟩, ?_⟩⟩, by decide, _, rfl⟩
  · have : waiting.arbiter.stampOrder = [1] := by decide
    rw [this, List.mem_singleton] at h
    rw [h]
    decide
  · rintro ⟨i, h, rfl⟩
    revert i
    decide

theorem witness_StepKeepsChain : waiting.ChainHolds ∧ ∃ t, step waiting = .next t := by
  refine ⟨⟨by decide, by decide, by decide, fun _ _ _ => ⟨0, by decide⟩, by decide, fun h => absurd h (by decide)⟩, _, rfl⟩

end Sys2Proof.Tests
end

section
/-! SUPPORT. The bounded counts (R4, R22, R96, R131): what each operation does to them, and that every step keeps them. -/
namespace Sys2Proof.Machine

/-! ### The bounded counts of one port -/

/-- The counts of one port lie in their ranges: at most 16 completion records (R22), overwritten counts at most 32768
(R131). -/
def PortState.CountsHold (ps : PortState) : Prop :=
  ps.completions.length ≤ 16 ∧ ∀ q, (ps.ring q).overwritten ≤ 32768

theorem Ring.overwritten_setPosition (r : Ring) (i : Nat) (x : Position) :
    (r.setPosition i x).overwritten = r.overwritten := by
  unfold Ring.setPosition
  split <;> rfl

namespace PortState.CountsHold

theorem of_same {a b : PortState} (h : a.CountsHold) (hc : b.completions = a.completions)
    (hr : ∀ q, b.ring q = a.ring q) : b.CountsHold :=
  ⟨hc ▸ h.1, fun q => hr q ▸ h.2 q⟩

theorem of_coreSame {a b : PortState} (h : a.CountsHold) (e : a.CoreSame b) : b.CountsHold :=
  h.of_same e.completions fun q => by
    cases q
    · exact e.ring0
    · exact e.ring1

theorem updRing {ps : PortState} (h : ps.CountsHold) (q : QueueId) {f : Ring → Ring}
    (hf : (f (ps.ring q)).overwritten ≤ 32768) : (ps.updRing q f).CountsHold := by
  have h0 := h.2 .q0
  have h1 := h.2 .q1
  refine ⟨?_, fun r => ?_⟩
  · cases q <;> exact h.1
  · cases q <;> cases r <;> assumption

theorem raise {ps : PortState} (h : ps.CountsHold) (e : Event) : (ps.raise e).CountsHold :=
  h.of_same rfl fun _ => rfl

theorem raiseIf {ps : PortState} (h : ps.CountsHold) (c : Bool) (e : Event) : (ps.raiseIf c e).CountsHold := by
  cases c
  · exact h
  · exact h.raise e

theorem sourceEmptied {ps : PortState} (h : ps.CountsHold) (q : QueueId) : (ps.sourceEmptied q).CountsHold := by
  unfold PortState.sourceEmptied
  split
  · exact h.of_same rfl fun _ => rfl
  · exact h

theorem startTimeout {ps : PortState} (h : ps.CountsHold) (q : QueueId) : (ps.startTimeout q).CountsHold := by
  unfold PortState.startTimeout
  split
  · exact h.of_same rfl fun _ => rfl
  · exact h

/-! ### Stores into queues and latest-value slots -/

theorem append {ps : PortState} (h : ps.CountsHold) (q : QueueId) (reserved : Bool) (rec : SampleRecord) :
    (ps.append q reserved rec).CountsHold := by
  have overwritten := Nat.le_trans (Nat.le_of_eq
    ((ps.ring q).overwritten_setPosition (ps.ring q).put ⟨(ps.ring q).nextNumber, rec⟩)) (h.2 q)
  unfold PortState.append
  dsimp only
  split
  · refine startTimeout (raiseIf (raiseIf (h.updRing q ?_) _ _) _ _) q
    exact overwritten
  · refine raiseIf (raiseIf (h.updRing q ?_) _ _) _ _
    exact overwritten

/-- The overwritten count stops at its limit (R133). -/
theorem overwriteOldest {ps : PortState} (h : ps.CountsHold) (q : QueueId) (rec : SampleRecord) :
    (ps.overwriteOldest q rec).CountsHold :=
  (h.updRing q (Nat.min_le_right _ _)).raise _

theorem storeUnreserved {ps : PortState} (h : ps.CountsHold) (q : QueueId) (rec : SampleRecord) :
    (ps.storeUnreserved q rec).1.CountsHold := by
  unfold PortState.storeUnreserved
  split
  · exact h.raise _
  · split
    · split
      · exact h.append q _ rec
      · exact h.overwriteOldest q rec
    · split
      · exact h.append q _ rec
      · exact h.raise _

theorem storeReserved {ps : PortState} (h : ps.CountsHold) (q : QueueId) (rec : SampleRecord) :
    (ps.storeReserved q rec).1.CountsHold := by
  unfold PortState.storeReserved
  split
  · exact h.append q _ rec
  · exact h

theorem storeSlot {ps : PortState} (h : ps.CountsHold) (n : Fin 16) (rec : SampleRecord) :
    (ps.storeSlot n rec).1.CountsHold := by
  unfold PortState.storeSlot
  split
  · exact h
  · exact h.of_same rfl fun _ => rfl

theorem ownStore {ps ps' : PortState} {x : Slot} {e : Nat} {rec : SampleRecord} {b : Bool} (h : ps.CountsHold)
    (eq : ps.ownStore x e rec = some (ps', b)) : ps'.CountsHold := by
  unfold PortState.ownStore at eq
  split at eq
  · next q _ =>
    split at eq
    · have := h.storeReserved q rec
      rwa [Option.some.inj eq] at this
    · have := h.storeUnreserved q rec
      rwa [Option.some.inj eq] at this
  · next base _ =>
    split at eq
    · next he =>
      have := h.storeSlot ⟨base + e, he⟩ rec
      rwa [Option.some.inj eq] at this
    · cases eq
      exact h
  · cases eq
  · cases eq

theorem carryOut {ps : PortState} (h : ps.CountsHold) (a : FilterAction) (rec : SampleRecord) :
    (ps.carryOut a rec).CountsHold := by
  cases a with
  | reject => exact h
  | store q => exact h.storeUnreserved q rec
  | storeUrgent =>
    unfold PortState.carryOut
    dsimp only
    split
    · exact (h.storeUnreserved .q0 _).raise _
    · exact h.storeUnreserved .q0 _
  | watch => exact h.of_same rfl fun _ => rfl
  | storeSlot n => exact h.storeSlot n rec

/-! ### Endings, emptying, acknowledgement -/

/-- A record is appended to fewer than 16 only (R21). -/
theorem addCompletion {ps : PortState} (h : ps.CountsHold) (r : CompletionRecord) : (ps.addCompletion r).CountsHold := by
  unfold PortState.addCompletion
  split
  · next hlt =>
    refine ⟨?_, h.2⟩
    show (ps.completions ++ [r]).length ≤ 16
    rw [List.length_append]
    exact hlt
  · exact h.raise _

theorem emptySamples {ps : PortState} (h : ps.CountsHold) : ps.emptySamples.CountsHold := by
  rw [ps.emptySamples_eq]
  refine ⟨h.1, fun q => ?_⟩
  cases q <;> exact Nat.zero_le _

theorem presetTimeout {ps : PortState} (h : ps.CountsHold) : ps.presetTimeout.CountsHold := h.of_same rfl fun _ => rfl

theorem withoutCompletions {ps : PortState} (h : ps.CountsHold) :
    PortState.CountsHold { ps with completions := [] } := ⟨Nat.zero_le _, h.2⟩

theorem shut {ps : PortState} (h : ps.CountsHold) : ps.shut.CountsHold := ⟨Nat.zero_le _, h.emptySamples.2⟩

theorem clear (ps : PortState) : ps.clear.CountsHold :=
  ⟨Nat.zero_le _, fun q => by cases q <;> exact Nat.zero_le _⟩

theorem reset (lineLow : Bool) : (PortState.reset lineLow).CountsHold :=
  ⟨Nat.zero_le _, fun q => by cases q <;> exact Nat.zero_le _⟩

theorem acknowledge {ps : PortState} (h : ps.CountsHold) (q : QueueId) (number : Word) :
    (ps.acknowledge q number).CountsHold := by
  unfold PortState.acknowledge
  dsimp only
  split
  · exact (h.updRing q (Nat.zero_le _)).sourceEmptied q
  · exact h.updRing q (Nat.zero_le _)

theorem releaseLatest {ps : PortState} (h : ps.CountsHold) (set : Word) : (ps.releaseLatest set).CountsHold := by
  refine List.foldlRecOn _ _ h fun ps h n _ => ?_
  split
  · exact h.of_same rfl fun _ => rfl
  · exact h

theorem writeConfiguration {ps : PortState} (h : ps.CountsHold) (a : BitVec 12) (v : Word) :
    (ps.writeConfiguration a v).CountsHold := by
  unfold PortState.writeConfiguration
  split
  · exact h.of_same rfl fun q => by cases q <;> rfl
  · split
    · exact h.of_same rfl fun _ => rfl
    · dsimp only
      split
      · exact h.of_same rfl fun _ => rfl
      · exact h

theorem tick {ps : PortState} (h : ps.CountsHold) : ps.tick.CountsHold := by
  unfold PortState.tick
  split
  · exact h.of_same rfl fun _ => rfl
  · exact h

theorem timeoutTick {ps : PortState} (h : ps.CountsHold) : ps.timeoutTick.CountsHold := by
  unfold PortState.timeoutTick
  split
  · exact h.of_same rfl fun _ => rfl
  · exact h

theorem timeoutExpiry {ps : PortState} (h : ps.CountsHold) : ps.timeoutExpiry.CountsHold := by
  unfold PortState.timeoutExpiry
  split
  · exact h.of_same rfl fun _ => rfl
  · exact h

end PortState.CountsHold

/-! ### Updates of the state -/

namespace State.CountsInRange

/-- The bounds speak of the ports, the slots and the lease alone. -/
theorem of_same {s t : State} (h : s.CountsInRange) (hp : t.ports = s.ports) (hs : t.slots = s.slots)
    (hl : t.cal.lease = s.cal.lease) : t.CountsInRange := by
  obtain ⟨records, overwritten, passed, lease⟩ := h
  refine ⟨?_, ?_, ?_, ?_⟩
  · simpa only [State.port, hp] using records
  · simpa only [State.port, hp] using overwritten
  · simpa only [State.slot, hs] using passed
  · simpa only [hl] using lease

theorem port {s : State} (h : s.CountsInRange) (p : Port) : (s.port p).CountsHold := ⟨h.1 p, h.2.1 p⟩

theorem slot {s : State} (h : s.CountsInRange) (i : SlotId) : (s.slot i).passedOver ≤ 8 := h.2.2.1 i

theorem leaseDuration {s : State} (h : s.CountsInRange) : s.cal.lease.duration ≤ 255 := h.2.2.2.1

theorem leaseRemaining {s : State} (h : s.CountsInRange) : s.cal.lease.remaining ≤ 25500000 := h.2.2.2.2

/-- The bounds, port by port. -/
theorem of_parts {s : State} (hp : ∀ p, (s.port p).CountsHold) (hs : ∀ i, (s.slot i).passedOver ≤ 8)
    (hd : s.cal.lease.duration ≤ 255) (hr : s.cal.lease.remaining ≤ 25500000) : s.CountsInRange :=
  ⟨fun p => (hp p).1, fun p => (hp p).2, hs, hd, hr⟩

theorem updPort {s : State} (h : s.CountsInRange) (p : Port) {f : PortState → PortState}
    (hf : (f (s.port p)).CountsHold) : (s.updPort p f).CountsInRange := by
  refine of_parts (fun q => ?_) h.slot h.leaseDuration h.leaseRemaining
  rw [State.port_updPort]
  split
  · next e => exact e ▸ hf
  · exact h.port q

theorem updSlot {s : State} (h : s.CountsInRange) (i : SlotId) {f : Slot → Slot}
    (hf : (f (s.slot i)).passedOver ≤ 8) : (s.updSlot i f).CountsInRange := by
  refine of_parts h.port (fun j => ?_) h.leaseDuration h.leaseRemaining
  rw [State.slot_updSlot]
  split
  · next e => exact e ▸ hf
  · exact h.slot j

/-- An update of a slot that leaves its passed-over count. -/
theorem updSlot_same {s : State} (h : s.CountsInRange) (i : SlotId) {f : Slot → Slot}
    (hf : (f (s.slot i)).passedOver = (s.slot i).passedOver) : (s.updSlot i f).CountsInRange :=
  h.updSlot i (Nat.le_trans (Nat.le_of_eq hf) (h.slot i))

theorem updLease {s : State} (h : s.CountsInRange) {f : Lease → Lease} (hd : (f s.cal.lease).duration ≤ 255)
    (hr : (f s.cal.lease).remaining ≤ 25500000) : (s.updLease f).CountsInRange :=
  of_parts h.port h.slot hd hr

theorem updCounters {s : State} (h : s.CountsInRange) (i : SlotId) (f : Counters → Counters) :
    (s.updCounters i f).CountsInRange := h.updSlot_same i rfl

theorem updTimer {s : State} (h : s.CountsInRange) (n : Fin 4) (f : Timer → Timer) : (s.updTimer n f).CountsInRange :=
  h.of_same rfl rfl rfl

theorem updSeq {s : State} (h : s.CountsInRange) (f : Sequencer → Sequencer) : (s.updSeq f).CountsInRange :=
  h.of_same rfl rfl rfl

theorem withSeq {s : State} (h : s.CountsInRange) (q : Sequencer) : State.CountsInRange { s with seq := q } :=
  h.of_same rfl rfl rfl

theorem withArbiter {s : State} (h : s.CountsInRange) (a : Arbiter) : State.CountsInRange { s with arbiter := a } :=
  h.of_same rfl rfl rfl

theorem handCut {s : State} (h : s.CountsInRange) (i : SlotId) : (s.handCut i).CountsInRange := h.withSeq _

theorem countFree {s : State} (h : s.CountsInRange) : s.countFree.CountsInRange := h.of_same rfl rfl rfl

theorem pruneStamps {s : State} (h : s.CountsInRange) : s.pruneStamps.CountsInRange := h.of_same rfl rfl rfl

theorem forgetCut {s : State} (h : s.CountsInRange) (i : SlotId) : (s.forgetCut i).CountsInRange :=
  h.of_same rfl rfl rfl

theorem raise {s : State} (h : s.CountsInRange) (p : Port) (e : Event) : (s.raise p e).CountsInRange :=
  h.updPort p ((h.port p).raise e)

theorem raiseAll {s : State} (h : s.CountsInRange) (e : Event) : (s.raiseAll e).CountsInRange :=
  ((h.raise .a e).raise .b e).raise .c e

/-- The words of ports are no bounded counts. -/
theorem of_coreSame {s t : State} (h : s.CountsInRange) (e : s.CoreSame t) : t.CountsInRange :=
  of_parts (fun p => (h.port p).of_coreSame (e.port p)) (fun i => e.slot i ▸ h.slot i) (e.cal ▸ h.leaseDuration)
    (e.cal ▸ h.leaseRemaining)

/-- A fold of operations that keep the bounds keeps them. -/
theorem foldl {α : Type} {f : State → α → State} (hf : ∀ (s : State) (a : α), s.CountsInRange → (f s a).CountsInRange)
    (l : List α) {s : State} (h : s.CountsInRange) : (l.foldl f s).CountsInRange :=
  List.foldlRecOn l f h fun t ht a _ => hf t a ht

/-! ### The due list and the Request Table -/

theorem makeDue {s : State} (h : s.CountsInRange) (ids : List SlotId) : (s.makeDue ids).CountsInRange := by
  unfold State.makeDue
  split
  · exact h
  · exact (foldl (fun _ i h => h.updSlot_same i rfl) ids h).withArbiter _

theorem returnStalled {s : State} (h : s.CountsInRange) (p : Port) (q : QueueId) :
    (s.returnStalled p q).CountsInRange := by
  refine foldl (fun s i h => ?_) _ h
  split
  · exact h.updSlot_same i rfl
  · exact h

theorem dropTimerRef {s : State} (h : s.CountsInRange) (f : SlotFields) : (s.dropTimerRef f).CountsInRange := by
  unfold State.dropTimerRef
  split
  · exact h.updTimer _ _
  · exact h

theorem returnHeld {s : State} (h : s.CountsInRange) (p : Port) (x : Slot) (b : Bool) :
    (s.returnHeld p x b).CountsInRange := by
  unfold State.returnHeld
  split
  · exact h
  · split
    · next q _ =>
      have returned : (s.updPort p fun ps =>
          ps.updRing q fun r => { r with reserved := r.reserved - x.held }).CountsInRange :=
        h.updPort p ((h.port p).updRing q ((h.port p).2 q))
      dsimp only
      split
      · exact returned.returnStalled p q
      · exact returned
    · exact h

theorem endPosting {s : State} (h : s.CountsInRange) (i : SlotId) (o : Option EndOutcome) :
    (s.endPosting i o).CountsInRange := by
  have rest : ∀ t : State, t.CountsInRange → (((((t.updSlot i Slot.ended).dropTimerRef
      (s.slot i).fields).pruneStamps).forgetCut i).returnHeld (slotOwner i) (s.slot i) o.isSome).CountsInRange :=
    fun t ht => ((((ht.updSlot_same i rfl).dropTimerRef _).pruneStamps).forgetCut i).returnHeld _ _ _
  unfold State.endPosting
  dsimp only
  split
  · exact h
  · cases o with
    | none => exact rest s h
    | some o => exact rest _ (h.updPort _ ((h.port _).addCompletion _))

theorem takeTrigger {s : State} (h : s.CountsInRange) (i : SlotId) : (s.takeTrigger i).CountsInRange := by
  have missed : ((s.updCounters i Counters.missTrigger).raise (slotOwner i) .triggerMissed).CountsInRange :=
    (h.updCounters i _).raise _ _
  unfold State.takeTrigger
  dsimp only
  split
  · exact h
  · exact h
  · split
    · split
      · exact missed.endPosting _ _
      · exact missed
    · exact h.updSlot_same i rfl
  · split
    · split
      · exact missed.endPosting _ _
      · exact missed
    · exact h.updSlot_same i rfl
  · split
    · split
      · exact missed.updSlot_same i rfl
      · exact missed
    · exact h.updSlot_same i rfl
  · exact h.updCounters i _

theorem deliverTriggers {s : State} (h : s.CountsInRange) (ids : List SlotId) : (s.deliverTriggers ids).CountsInRange :=
  (foldl (fun _ i h => h.takeTrigger i) _ (foldl (fun _ i h => h.takeTrigger i) _ (h.makeDue _))).countFree

theorem completeSweep {s : State} (h : s.CountsInRange) (i : SlotId) : (s.completeSweep i).CountsInRange := by
  have counted := h.updCounters i Counters.completeSweep
  unfold State.completeSweep
  split
  · dsimp only
    split
    · exact counted.endPosting _ _
    · split
      · exact (counted.updSlot_same i rfl).makeDue _
      · split
        · exact counted.makeDue _
        · exact counted.updSlot_same i rfl
  · exact counted.endPosting _ _
  all_goals exact h

theorem cutSweep {s : State} (h : s.CountsInRange) (i : SlotId) : (s.cutSweep i).CountsInRange := by
  unfold State.cutSweep
  split
  · exact h.endPosting _ _
  all_goals exact h

theorem takeReport {s : State} (h : s.CountsInRange) (r : Option Report) : (s.takeReport r).CountsInRange := by
  unfold State.takeReport
  split
  · exact h
  · split
    · exact h.completeSweep _
    · exact h.cutSweep _

theorem handReport {s : State} (h : s.CountsInRange) (r : Option Report) : (s.handReport r).CountsInRange := by
  unfold State.handReport
  split
  · exact h
  · split
    · exact h.of_same rfl rfl rfl
    · exact h.cutSweep _

theorem takeFirstReport {s : State} (h : s.CountsInRange) : s.takeFirstReport.CountsInRange := by
  unfold State.takeFirstReport
  split
  · exact h
  · exact (h.withSeq _).completeSweep _

theorem takeReports {s : State} (h : s.CountsInRange) (which : SlotId → Bool) : (s.takeReports which).CountsInRange :=
  foldl (fun _ i h => h.completeSweep i) _ (h.of_same rfl rfl rfl)

theorem takeReportsWhen {s : State} (h : s.CountsInRange) (w : ReportTaking) : (s.takeReportsWhen w).CountsInRange := by
  cases w
  · exact h.takeReports _
  · exact h

theorem takePost {s : State} (h : s.CountsInRange) (i : SlotId) : (s.takePost i).CountsInRange := by
  have posted : (s.updSlot i Slot.posted).CountsInRange := h.updSlot i (Nat.zero_le _)
  have referred : ((s.updSlot i Slot.posted).addTimerRef (s.slot i).fields).CountsInRange := by
    unfold State.addTimerRef
    split
    · exact posted.updTimer _ _
    · exact posted
  unfold State.takePost
  dsimp only
  split
  · exact referred.makeDue _
  · exact referred

theorem takeCancel {s : State} (h : s.CountsInRange) (i : SlotId) (m : CancelMode) :
    (s.takeCancel i m).1.CountsInRange := by
  unfold State.takeCancel
  split
  · exact h
  · exact h.endPosting _ _
  · exact h.endPosting _ _
  · exact h.endPosting _ _
  · exact h.updSlot_same i rfl
  · exact (h.updSlot_same i rfl).handCut i
  · exact (h.updSlot_same i rfl).handCut i
  · exact h
  · exact h

/-! ### Delivery and the pipeline -/

theorem deliverOwn {s : State} (h : s.CountsInRange) (x : Sample) (rec : SampleRecord) :
    (s.deliverOwn x rec).CountsInRange := by
  unfold State.deliverOwn
  dsimp only
  split
  · exact h
  · next ps b e =>
    refine ((h.updPort _ ((h.port _).ownStore e)).updCounters _ _).updSlot_same _ ?_
    unfold Slot.consumePlace
    split <;> rfl

theorem deliver {s : State} (h : s.CountsInRange) (c : Option Port) (x : Sample) : (s.deliver c x).CountsInRange := by
  have own := (h.updCounters x.slot fun c => { c with entriesProduced := c.entriesProduced + 1 }).deliverOwn x
    (s.copyRecord (slotOwner x.slot) false x)
  unfold State.deliver
  dsimp only
  split
  · refine foldl (fun t p ht => ?_) _ own
    split
    · exact ht.updPort p ((ht.port p).carryOut _ _)
    · exact ht
  · exact own

theorem readSweep {s : State} (h : s.CountsInRange) (c : Option Port) (r : SweepRecord) (start : DWord) :
    (s.readSweep c r start).1.CountsInRange := by
  unfold State.readSweep
  split
  · exact h
  · split
    · exact (h.updSeq _).deliver _ _
    · exact h.updSeq _

theorem readout {s : State} (h : s.CountsInRange) (c : Option Port) : (s.readout c).1.CountsInRange := by
  unfold State.readout
  dsimp only
  split
  · exact (h.updSeq _).readSweep _ _ _
  all_goals exact h.updSeq _

theorem refill {s : State} (h : s.CountsInRange) (r : SweepRecord) : (s.refill r).CountsInRange := by
  unfold State.refill
  split <;> exact h.updSeq _

theorem startSelected {s : State} (h : s.CountsInRange) (r : SweepRecord) : (s.startSelected r).CountsInRange := by
  have started : (((s.readout none).1.updSeq fun q => { q with selected := none }).beginConversion
      (.sweep r)).CountsInRange := ((h.readout none).updSeq _).updSeq _
  unfold State.startSelected
  dsimp only
  refine handReport ?_ _
  split
  · exact started.refill r
  · exact started

theorem flushOrIdle {s : State} (h : s.CountsInRange) (c : Option Port) : (s.flushOrIdle c).CountsInRange := by
  unfold State.flushOrIdle
  split
  · exact ((h.readout c).updSeq _).handReport _
  · exact h.updSeq _

theorem afterRemoval {s : State} (h : s.CountsInRange) (c : Option Port) : (s.afterRemoval c).CountsInRange := by
  unfold State.afterRemoval
  split
  · exact h.flushOrIdle c
  · exact h

theorem cutUnstarted {s : State} (h : s.CountsInRange) (i : SlotId) : (s.cutUnstarted i).CountsInRange := by
  have dropped := h.updSeq Sequencer.dropSelected
  unfold State.cutUnstarted
  dsimp only
  split
  · refine ((takeReport ?_ _).countFree).countFree
    split
    · exact (dropped.afterRemoval none).takeReports _
    · exact dropped.afterRemoval none
  · exact (((dropped.takeReport _).afterRemoval none).countFree).countFree

theorem cutAfter {s : State} (h : s.CountsInRange) (i : SlotId) (e : Nat) : (s.cutAfter i e).CountsInRange := by
  have truncated : (s.updSlot i fun x => { x with truncatedAt := some e }).CountsInRange := h.updSlot_same i rfl
  unfold State.cutAfter
  dsimp only
  split
  · exact (truncated.updSeq _).afterRemoval none
  · exact truncated

theorem cut {s : State} (h : s.CountsInRange) (i : SlotId) : (s.cut i).CountsInRange := by
  have forgot := h.forgetCut i
  unfold State.cut State.takeCut
  dsimp only
  split
  · split
    · split
      · exact forgot.cutUnstarted i
      · exact forgot
    · split
      · exact forgot
      · exact forgot.cutAfter i _
  · exact h

theorem startConversion {s : State} (h : s.CountsInRange) (w : ReportTaking) : (s.startConversion w).CountsInRange := by
  unfold State.startConversion
  split
  · split
    · exact (h.startSelected _).takeReportsWhen w
    · exact h
  · exact h

theorem endConversion {s : State} (h : s.CountsInRange) (raw : Word) : (s.endConversion raw).CountsInRange := by
  have ended : ∀ t : State, t.CountsInRange → (let u := t.updSeq fun q =>
      { q with buffer := q.converting, converting := none, doneTimeout := none, converterCode := raw }
      if u.seq.selected.isNone then u.flushOrIdle none else u).CountsInRange := by
    intro t ht
    dsimp only
    split
    · exact (ht.updSeq _).flushOrIdle none
    · exact ht.updSeq _
  refine ended _ ?_
  split
  · exact (h.updSeq _).raiseAll _
  · exact h

theorem converterDone {s : State} (h : s.CountsInRange) (raw : Word) (w : ReportTaking) :
    (s.converterDone raw w).CountsInRange := by
  unfold State.converterDone
  split
  · exact (h.endConversion raw).takeReportsWhen w
  · exact h

theorem doneTimeout {s : State} (h : s.CountsInRange) : s.doneTimeout.CountsInRange := by
  unfold State.doneTimeout
  split
  · split
    · exact foldl (fun _ i h => h.endPosting i _) _ ((h.updSeq _).raiseAll _)
    · exact (h.updSeq _).raiseAll _
    · exact h
  · exact h

theorem restartConverter {s : State} (h : s.CountsInRange) : s.restartConverter.1.CountsInRange := by
  unfold State.restartConverter
  split
  · exact (h.updSeq _).updSeq _
  · exact h
  · exact h

/-! ### The arbiter -/

theorem chooseWinner {s : State} (h : s.CountsInRange) (n : Nat) : (s.chooseWinner n).1.CountsInRange := by
  induction n generalizing s with
  | zero => exact h
  | succ n ih =>
    unfold State.chooseWinner
    split
    · exact h
    · split
      · exact h
      · exact ih ((h.updSlot_same _ rfl).raise _ _)

theorem reserve {s : State} (h : s.CountsInRange) (i : SlotId) : (s.reserve i).CountsInRange := by
  unfold State.reserve
  dsimp only
  split
  · split
    · next q _ => exact (h.updPort _ ((h.port _).updRing q ((h.port _).2 q))).updSlot_same i rfl
    · exact h
  · exact h

/-- The passed-over count stops at the aging limit, 8 (R48). -/
theorem age {s : State} (h : s.CountsInRange) (i : SlotId) : (s.age i).CountsInRange := by
  refine foldl (fun s j h => h.updSlot j ?_) _ h
  dsimp only
  split
  · exact Nat.zero_le _
  · exact Nat.min_le_right _ _

theorem grantTo {s : State} (h : s.CountsInRange) (i : SlotId) : (s.grantTo i).CountsInRange := by
  have aged := ((h.reserve i).age i).withArbiter { ((s.reserve i).age i).arbiter with lastGranted := slotOwner i }
  have running := (aged.updSlot_same i (f := fun x => { x with state := .running }) rfl).pruneStamps
  exact (running.updSeq _).updSeq (Sequencer.select _ _)

theorem grant {s : State} (h : s.CountsInRange) : s.grant.CountsInRange := by
  have chosen := h.chooseWinner 24
  unfold State.grant
  split
  · split
    · next e => rw [e] at chosen; exact chosen.grantTo _
    · next e => rw [e] at chosen; exact chosen
  · exact h

/-! ### Ports and resets -/

theorem releaseTimers {s : State} (h : s.CountsInRange) (p : Port) : (s.releaseTimers p).CountsInRange := by
  refine foldl (fun s n h => ?_) _ h
  split
  · exact h.updTimer n _
  · exact h

theorem leavePipeline {s : State} (h : s.CountsInRange) (p : Port) : (s.leavePipeline p).CountsInRange := by
  unfold State.leavePipeline
  dsimp only
  refine countFree ?_
  split
  · exact (h.updSeq _).afterRemoval _
  · exact h.updSeq _

/-- A lease that ends before its time keeps its duration and shows at most 25,500 ms (R96, R100). -/
theorem dropLease {s : State} (h : s.CountsInRange) : s.dropLease.CountsInRange := by
  obtain ⟨t, r, e, hr, _⟩ := s.dropLease_eq
  rw [e]
  exact of_parts h.port h.slot h.leaseDuration hr

theorem closeEffects {s : State} (h : s.CountsInRange) (p : Port) : (s.closeEffects p).CountsInRange := by
  have closing : (s.closing p).CountsInRange :=
    ((foldl (fun _ i h => h.endPosting i none) _ (h.takeReports _)).leavePipeline p).releaseTimers p
  have left : ((s.closing p).leaveLease p).CountsInRange := by
    unfold State.leaveLease
    split
    · exact closing.dropLease
    · exact closing
  rw [s.closeEffects_eq]
  exact left.updPort p (left.port p).shut

theorem portReset {s : State} (h : s.CountsInRange) (p : Port) : (s.portReset p).CountsInRange := by
  have closed : (if (s.port p).mode = .opened then s.closeEffects p else s).CountsInRange := by
    split
    · exact h.closeEffects p
    · exact h
  exact foldl (fun _ i h => h.updSlot i (Nat.zero_le _)) _ (closed.updPort p (.clear _))

theorem resetAll (s : State) (b : Bool) : (s.resetAll b).CountsInRange := by
  refine of_parts (fun p => ?_) (fun i => ?_) (Nat.zero_le _) (Nat.zero_le _)
  · cases p <;> exact .reset _
  · show (tget (Vector.replicate 24 Slot.reset) i).passedOver ≤ 8
    rw [tget_replicate]
    exact Nat.zero_le _

theorem openPort {s : State} (h : s.CountsInRange) (p : Port) : (s.openPort p).1.CountsInRange := by
  unfold State.openPort
  dsimp only
  split
  · exact h
  · split
    · exact h
    · split
      · exact h
      · have opened := (h.port p).of_same (b := { s.port p with mode := .opened }) rfl fun _ => rfl
        exact h.updPort p opened.emptySamples.presetTimeout.withoutCompletions

theorem passMicrosecond {s : State} (h : s.CountsInRange) : s.passMicrosecond.CountsInRange := by
  unfold State.passMicrosecond
  split
  · exact h
  · have ticked := foldl (fun _ p h => h.updPort p (h.port p).tick) allPorts
      (foldl (fun _ n h => h.updTimer n Timer.tick) allTimers
        (h.of_same rfl rfl rfl : State.CountsInRange { s with now := s.now + 1 }))
    have hd := ticked.leaseDuration
    have hr := ticked.leaseRemaining
    dsimp only
    refine ticked.updLease ?_ ?_
    all_goals
      unfold Lease.tick
      split
      · dsimp only; omega
      · assumption

/-! ### Calibration -/

/-- A lease of at most 255 units lasts at most 25,500 ms (R96). -/
theorem leaseTime_le {d : Nat} (hd : d ≤ 255) : d * Config.leaseUnit ≤ 25500000 := by
  unfold Config.leaseUnit
  omega

theorem takeLease {s : State} (h : s.CountsInRange) (p : Port) : (s.takeLease p).1.CountsInRange := by
  unfold State.takeLease
  dsimp only
  split
  · exact h
  · next range =>
    obtain ⟨_, hd⟩ := Classical.not_not.mp range
    split
    · have time := leaseTime_le hd
      exact h.updLease (f := fun _ => ⟨some p, _, _⟩) hd time
    · exact h

theorem renew {s : State} (h : s.CountsInRange) : (s.updLease Lease.renew).CountsInRange :=
  h.updLease h.leaseDuration (leaseTime_le h.leaseDuration)

theorem leaseExpiry {s : State} (h : s.CountsInRange) : s.leaseExpiry.CountsInRange := by
  obtain ⟨t, e, _⟩ := s.discardProvisional_eq
  unfold State.leaseExpiry
  rw [e]
  split
  · split
    · exact ((h.of_same rfl rfl rfl : State.CountsInRange { s with cal := { s.cal with table := t } }).updLease
        h.leaseDuration h.leaseRemaining).raise _ _
    · exact h
  · exact h

theorem takeWriteReport {s : State} (h : s.CountsInRange) (b : Bool) : (s.takeWriteReport b).CountsInRange := by
  unfold State.takeWriteReport
  split
  · exact (h.of_same rfl rfl rfl).raise _ _
  · exact (h.of_same rfl rfl rfl).raise _ _
  · exact h
  · exact h

/-! ### Commands on the parts -/

theorem post {s : State} (h : s.CountsInRange) (p : Port) : (s.post p).1.CountsInRange := by
  unfold State.post
  split
  · exact h
  · dsimp only
    split
    · exact h.takePost _
    · exact h

theorem cancel {s : State} (h : s.CountsInRange) (p : Port) : (s.cancel p).1.CountsInRange := by
  unfold State.cancel
  split
  · exact h
  · split
    · exact h
    · exact h.takeCancel _ _

theorem ackQueue {s : State} (h : s.CountsInRange) (p : Port) : (s.ackQueue p).1.CountsInRange := by
  unfold State.ackQueue
  split
  · exact h
  · dsimp only
    split
    · exact (h.updPort p ((h.port p).acknowledge _ _)).returnStalled p _
    · exact h

theorem popCompletion {s : State} (h : s.CountsInRange) (p : Port) : (s.popCompletion p).1.CountsInRange := by
  unfold State.popCompletion
  split
  · exact h
  · next r rest e =>
    refine h.updPort p ⟨?_, (h.port p).2⟩
    have records := (h.port p).1
    rw [e, List.length_cons] at records
    exact Nat.le_of_succ_le records

/-- Every kind of work keeps the bounded counts within their bounds. -/
theorem keptBySteps : KeptBySteps State.CountsInRange where
  words _ _ e h := h.of_coreSame e
  lineLow _ p _ h := h.updPort p ((h.port p).of_same rfl fun _ => rfl)
  slotFields _ i _ _ h := h.updSlot_same i rfl
  configuration _ p a v _ h := h.updPort p ((h.port p).writeConfiguration a v)
  openPort _ p h := h.openPort p
  closeEffects _ p _ h := h.closeEffects p
  portReset _ p h := h.portReset p
  resetAll s b _ := resetAll s b
  post _ p _ h := h.post p
  cancel _ p h := h.cancel p
  deliverTriggers _ _ h := h.deliverTriggers _
  trigger _ _ _ h := h.deliverTriggers _
  ackQueue _ p h := h.ackQueue p
  releaseSlots _ p h := h.updPort p ((h.port p).releaseLatest _)
  popCompletion _ p h := h.popCompletion p
  claimTimer _ _ n _ h := h.updTimer n _
  setTimer _ n _ _ h := h.updTimer n _
  startTimer _ _ n _ h := h.updTimer n _
  stopTimer _ _ n _ h := h.updTimer n _
  releaseTimer _ n h := h.updTimer n _
  line _ _ _ h := h.of_same rfl rfl rfl
  renew _ h := h.renew
  takeLease _ p _ h := h.takeLease p
  endLease _ h := h.dropLease
  leaseExpiry _ h := h.leaseExpiry
  setProvisional _ _ _ _ _ h := h.of_same rfl rfl rfl
  dropProvisional _ _ h := h.of_same rfl rfl rfl
  commitPending _ _ _ h := h.of_same rfl rfl rfl
  fillCommit _ _ _ _ h := h.of_same rfl rfl rfl
  store _ _ h := h.of_same rfl rfl rfl
  restartConverter _ h := h.restartConverter
  timerUnit _ n h := h.updTimer n _
  timerLoad _ n _ h := h.updTimer n _
  grant _ h := h.grant
  startConversion _ w h := h.startConversion w
  converterDone _ raw w h := h.converterDone raw w
  takeFirstReport _ h := h.takeFirstReport
  doneTimeout _ h := h.doneTimeout
  cut _ i h := h.cut i
  microsecond _ h := h.passMicrosecond
  timeoutTick _ p h := h.updPort p (h.port p).timeoutTick
  timeoutExpiry _ p h := h.updPort p (h.port p).timeoutExpiry
  takeWriteReport _ b h := h.takeWriteReport b
  installRecords _ _ h := h.of_same rfl rfl rfl
  emptyCommit _ h := h.of_same rfl rfl rfl

end State.CountsInRange

/-- Settles O54: every kind of work keeps the bounds, so every step does. -/
theorem stepKeepsCounts : Obligations.StepKeepsCounts := fun s t h e =>
  State.CountsInRange.keptBySteps.step s t h e

end Sys2Proof.Machine
end

section
/-! SUPPORT. The state after the device reset of a new part (R150), part by part. -/
namespace Sys2Proof.Machine

theorem State.port_reset (p : Port) : State.reset.port p = PortState.reset false := by
  cases p <;> rfl

theorem State.slot_reset (i : SlotId) : State.reset.slot i = Slot.reset := tget_replicate _ i

theorem State.timer_reset (n : Fin 4) : State.reset.timer n = Timer.reset := tget_replicate _ n

theorem State.line_reset (n : Fin 4) : State.reset.line n = Line.reset false := tget_replicate _ n

theorem State.calEntry_reset (ch : Channel) : State.reset.calEntry ch = CalEntry.reset := tget_replicate _ _

theorem State.fieldRecord_reset (ch : Channel) : State.reset.fieldRecord ch = .unwritten := tget_replicate _ _

theorem State.factoryRecord_reset (ch : Channel) : State.reset.factoryRecord ch = .unwritten := tget_replicate _ _

/-- Both rings of a port after a reset are empty (R136). -/
theorem PortState.ring_reset (lineLow : Bool) (q : QueueId) : (PortState.reset lineLow).ring q = Ring.empty := by
  cases q <;> rfl

/-- Settles O4: each part of the reset state holds the reset value of its kind, and the values are those of the manual. -/
theorem resetValues : Obligations.ResetValues := by
  refine ⟨fun p => ?_, fun i => ?_, State.timer_reset, fun n => ?_, rfl, rfl, rfl, rfl, rfl, rfl, rfl, rfl, rfl, ⟨0, rfl⟩,
    State.calEntry_reset, rfl, rfl, rfl, fun ch => ⟨State.fieldRecord_reset ch, State.factoryRecord_reset ch⟩, rfl, rfl,
    rfl, rfl⟩
  · rw [State.port_reset]
    refine ⟨rfl, rfl, rfl, rfl, rfl, rfl, rfl, rfl, rfl, tget_replicate _, fun q => ?_, fun n => ?_, rfl, rfl⟩
    · rw [PortState.ring_reset]
      exact ⟨rfl, rfl, rfl, rfl, rfl, rfl⟩
    · exact congrArg LatestSlot.newData (tget_replicate LatestSlot.empty n)
  · rw [State.slot_reset]
    exact ⟨rfl, rfl, rfl, rfl, rfl, rfl⟩
  · rw [State.line_reset]
    exact ⟨rfl, rfl, rfl, rfl⟩

end Sys2Proof.Machine
end

section
/-! SUPPORT. POP_COMPLETION (R22) and RELEASE_SLOTS (R141). -/
namespace Sys2Proof.Machine

/-- The latest-value slots with New Data cleared on those that a release names (R141). -/
def releasedSlots (named : Word) (latest : Vector LatestSlot 16) : Vector LatestSlot 16 :=
  Vector.ofFn fun n => if named.getLsbD n.val = true then { tget latest n with newData := false } else tget latest n

theorem tget_releasedSlots (named : Word) (latest : Vector LatestSlot 16) (n : Fin 16) :
    tget (releasedSlots named latest) n =
      if named.getLsbD n.val = true then { tget latest n with newData := false } else tget latest n := by
  unfold tget releasedSlots
  rw [Vector.getElem_ofFn]
  rfl

/-- Of the slots `l`, those that `named` picks lose New Data; the port keeps the rest. -/
theorem PortState.releaseLatest_fold (named : Fin 16 → Bool) (l : List (Fin 16)) (ps : PortState) :
    ∃ v, l.foldl (fun ps n => if named n then
        { ps with latest := tupd ps.latest n fun x => { x with newData := false } } else ps) ps =
          { ps with latest := v } ∧
      ∀ n, tget v n = if n ∈ l ∧ named n = true then { tget ps.latest n with newData := false }
        else tget ps.latest n := by
  induction l generalizing ps with
  | nil => exact ⟨ps.latest, rfl, fun n => by simp⟩
  | cons m l ih =>
    rw [List.foldl_cons]
    cases hm : named m with
    | false =>
      obtain ⟨v, e, h⟩ := ih ps
      refine ⟨v, e, fun n => ?_⟩
      rw [h n]
      by_cases hn : n = m <;> simp [hn, hm]
    | true =>
      obtain ⟨v, e, h⟩ := ih { ps with latest := tupd ps.latest m fun x => { x with newData := false } }
      refine ⟨v, e, fun n => ?_⟩
      rw [h n]
      dsimp only
      rw [tget_tupd]
      by_cases hn : n = m <;> simp [hn, hm]

/-- A release clears New Data on the slots it names, keeps every record, and touches nothing else (R141). -/
theorem PortState.releaseLatest_eq (named : Word) (ps : PortState) :
    ps.releaseLatest named = { ps with latest := releasedSlots named ps.latest } := by
  obtain ⟨v, e, h⟩ := PortState.releaseLatest_fold (fun n => named.getLsbD n.val) (List.finRange 16) ps
  have hv : v = releasedSlots named ps.latest := Vector.ext_tget fun n => by
    rw [h n, tget_releasedSlots]
    simp only [List.mem_finRange, true_and]
  exact hv ▸ e

/-- RELEASE_SLOTS, past the check that the port is OPEN, as one update of the port. -/
theorem State.releaseSlots_eq (s : State) (p : Port) :
    s.releaseSlots p =
      (s.updPort p fun ps => { ps with latest := releasedSlots (s.param p 0) ps.latest }, .ok) := by
  unfold State.releaseSlots
  rw [funext (PortState.releaseLatest_eq (s.param p 0))]

theorem State.completions_withCode (s : State) (p q : Port) (v : Word) :
    ((s.withCode p v).port q).completions = (s.port q).completions := by
  rw [State.port_withCode]
  split <;> rfl

theorem State.popCompletion_empty {s : State} {p : Port} (h : (s.port p).completions = []) :
    s.popCompletion p = (s, .empty) := by
  unfold State.popCompletion
  rw [h]

theorem State.popCompletion_cons {s : State} {p : Port} {r : CompletionRecord} {rest : List CompletionRecord}
    (h : (s.port p).completions = r :: rest) :
    s.popCompletion p = (s.updPort p fun ps => { ps with completions := rest }, .ok) := by
  unfold State.popCompletion
  rw [h]

theorem exec_popCompletion (p : Port) (s : State) :
    exec (.popCompletion p) s = .next (s.command p 9 (State.popCompletion p)) := rfl

theorem exec_releaseSlots (p : Port) (s : State) :
    exec (.releaseSlots p) s = .next (s.command p 8 fun s => s.whenOpen p (State.releaseSlots p)) := rfl

/-- Settles O25: by the completion queue's two shapes, and by what a release does to the latest-value slots. -/
theorem popAndRelease : Obligations.PopAndRelease := by
  refine ⟨fun p s hat => ⟨fun none => ?_, fun r rest some => ?_⟩, fun p s hopen => ?_⟩
  · refine ⟨BitVec.ofNat 16 9, ?_⟩
    rw [exec_popCompletion, State.command_answered hat]
    exact State.popCompletion_empty ((s.completions_withCode p p _).trans none)
  · refine ⟨BitVec.ofNat 16 9, ?_⟩
    rw [exec_popCompletion, State.command_answered hat]
    rw [State.popCompletion_cons ((s.completions_withCode p p _).trans some),
      State.updPort_withCode s p p _ _ fun _ => rfl]
  · refine ⟨BitVec.ofNat 16 8, releasedSlots (s.port p).params.p0 (s.port p).latest, ?_, tget_releasedSlots _ _⟩
    have released : (s.updPort p fun ps => { ps with latest := releasedSlots (s.param p 0) ps.latest }) =
        s.updPort p fun ps => { ps with latest := releasedSlots (s.port p).params.p0 (s.port p).latest } :=
      s.updPort_congr p rfl
    rw [exec_releaseSlots, ← released, State.openCommand_answered hopen]
    rw [State.releaseSlots_eq, State.param_withCode, State.updPort_withCode s p p _ _ fun _ => rfl]

end Sys2Proof.Machine
end

section
/-! SUPPORT. The writable words of a slot: what a write stores and what it reads as (R1, R3, R153, §11.4). -/
namespace Sys2Proof.Machine

/-! ### Fields of a word -/

/-- The bits of a word that a field at bit `low` takes read back as written. -/
theorem putBits_extract (low len : Nat) (v : Word) :
    putBits low (v.extractLsb' low len) = v &&& putBits low (BitVec.allOnes len) := by
  apply BitVec.eq_of_getLsbD_eq
  intro j hj
  by_cases h : j < low
  · simp [putBits, h]
  · have back : low + (j - low) = j := by omega
    simp [putBits, h, hj, back, Bool.and_comm]

theorem getLsbD_putBool (low : Nat) (b : Bool) {j : Nat} (hj : j < 16) :
    (putBool low b).getLsbD j = (b && decide (j = low)) := by
  cases b
  · simp [putBool]
  · show (BitVec.twoPow 16 low).getLsbD j = _
    rw [BitVec.getLsbD_twoPow]
    by_cases h : j = low
    · simp [h, h ▸ hj]
    · simp [h, Ne.symm h]

/-- A one-bit field reads back as written. -/
theorem putBool_getLsbD (low : Nat) (v : Word) : putBool low (v.getLsbD low) = v &&& putBool low true := by
  apply BitVec.eq_of_getLsbD_eq
  intro j hj
  rw [BitVec.getLsbD_and, getLsbD_putBool _ _ hj, getLsbD_putBool _ _ hj]
  by_cases h : j = low <;> simp [h]

/-! ### Words 0-19 of a slot -/

theorem SlotFields.entryAt_of_lt (f : SlotFields) {e : Nat} (h : e < 16) : f.entryAt e = f.entries[e] := dif_pos h

/-- A written word reads as the value at the bits that belong to a field (§11.4). -/
theorem SlotFields.word_write_self (f : SlotFields) (v : Word) {w : Nat} (hw : w < 20) :
    (f.write w v).word w = v &&& slotWordMask w := by
  have tagPriority : (0x1FFF : Word) = putBits 0 (BitVec.allOnes 8) ||| putBits 8 (BitVec.allOnes 5) := by decide
  have scan : (0x7F1F : Word) = putBits 0 (BitVec.allOnes 5) ||| putBits 8 (BitVec.allOnes 4) ||| putBool 12 true |||
    putBool 13 true ||| putBool 14 true := by decide
  have delivery : (0x31F7 : Word) = putBits 0 (BitVec.allOnes 3) ||| putBits 4 (BitVec.allOnes 5) |||
    putBits 12 (BitVec.allOnes 2) := by decide
  have entry : (0xFF3F : Word) = putBits 0 (BitVec.allOnes 6) ||| putBits 8 (BitVec.allOnes 4) |||
    putBits 12 (BitVec.allOnes 4) := by decide
  match w with
  | 0 =>
    show putBits 0 (v.extractLsb' 0 8) ||| putBits 8 (v.extractLsb' 8 5) = v &&& 0x1FFF
    simp only [tagPriority, putBits_extract, BitVec.and_or_distrib_left]
  | 1 =>
    show putBits 0 (v.extractLsb' 0 5) ||| putBits 8 (v.extractLsb' 8 4) ||| putBool 12 (v.getLsbD 12) |||
      putBool 13 (v.getLsbD 13) ||| putBool 14 (v.getLsbD 14) = v &&& 0x7F1F
    simp only [scan, putBits_extract, putBool_getLsbD, BitVec.and_or_distrib_left]
  | 2 => exact (BitVec.and_allOnes (x := v)).symm
  | 3 =>
    show putBits 0 (v.extractLsb' 0 3) ||| putBits 4 (v.extractLsb' 4 5) ||| putBits 12 (v.extractLsb' 12 2) =
      v &&& 0x31F7
    simp only [delivery, putBits_extract, BitVec.and_or_distrib_left]
  | e + 4 =>
    have he : e < 16 := by omega
    have written : (f.write (e + 4) v).entryAt e = ⟨v.extractLsb' 0 6, v.extractLsb' 8 4, v.extractLsb' 12 4⟩ := by
      rw [SlotFields.entryAt_of_lt _ he]
      simp [SlotFields.write, he]
    have word : (f.write (e + 4) v).word (e + 4) = putBits 0 (v.extractLsb' 0 6) ||| putBits 8 (v.extractLsb' 8 4) |||
        putBits 12 (v.extractLsb' 12 4) := by
      simp only [SlotFields.word, Nat.add_sub_cancel, written]
      simp
    have mask : slotWordMask (e + 4) = 0xFF3F := by simp [slotWordMask]
    rw [word, mask, entry]
    simp only [putBits_extract, BitVec.and_or_distrib_left]

/-- The other words keep their values (R3). -/
theorem SlotFields.word_write_ne (f : SlotFields) (v : Word) {u w : Nat} (hu : u < 20) (hw : w < 20) (h : u ≠ w) :
    (f.write w v).word u = f.word u := by
  match w, u with
  | 0, 0 | 1, 1 | 2, 2 | 3, 3 => exact absurd rfl h
  | 0, 1 | 0, 2 | 0, 3 | 1, 0 | 1, 2 | 1, 3 | 2, 0 | 2, 1 | 2, 3 | 3, 0 | 3, 1 | 3, 2 => rfl
  | 0, e + 4 | 1, e + 4 | 2, e + 4 | 3, e + 4 => rfl
  | d + 4, u =>
    have hd : d < 16 := by omega
    have stored : f.write (d + 4) v = { f with
        entries := f.entries.set d ⟨v.extractLsb' 0 6, v.extractLsb' 8 4, v.extractLsb' 12 4⟩ } := by
      simp [SlotFields.write, hd]
    rw [stored]
    match u with
    | 0 | 1 | 2 | 3 => rfl
    | e + 4 =>
      have he : e < 16 := by omega
      have hne : d ≠ e := by omega
      have kept : SlotFields.entryAt { f with
          entries := f.entries.set d ⟨v.extractLsb' 0 6, v.extractLsb' 8 4, v.extractLsb' 12 4⟩ } e = f.entryAt e := by
        simp [SlotFields.entryAt, he, hne]
      simp only [SlotFields.word, Nat.add_sub_cancel, kept]

/-! ### The slot region of a window (§11.2) -/

/-- The number of word `w` of a port's slot `k` is its address. -/
theorem toNat_slotAddress {k w : Nat} (hk : k < 8) (hw : w < 32) :
    (BitVec.ofNat 12 (0x100 + 32 * k + w)).toNat = 0x100 + 32 * k + w := by
  rw [BitVec.toNat_ofNat]
  omega

theorem slotAt_slotAddress {p : Port} {k w : Nat} {i : SlotId} (hk : k < 8) (hw : w < 32)
    (hi : i.val = 8 * portCode p + k) : slotAt p (BitVec.ofNat 12 (0x100 + 32 * k + w)) = some i := by
  have slot : (0x100 + 32 * k + w - 0x100) / 32 = k := by omega
  unfold slotAt
  rw [toNat_slotAddress hk hw, slot]
  have hlt := i.isLt
  exact (dif_pos (by omega)).trans (congrArg some (Fin.ext hi.symm))

theorem wordKind_slotAddress {k w : Nat} (hk : k < 8) (hw : w < 20) :
    wordKind (BitVec.ofNat 12 (0x100 + 32 * k + w)) = .slotField := by
  have row : (0x100 + 32 * k + w) % 32 = w := by omega
  unfold wordKind
  rw [toNat_slotAddress hk (by omega)]
  dsimp only
  rw [if_neg (by omega), if_neg (by omega), if_neg (by omega), if_neg (by omega), if_neg (by omega),
    if_pos (by omega), row, if_pos hw]

/-- SLOT_FIELD_WRITE at word `w` of the port's slot `k`, which is slot `i` (R3). -/
theorem exec_slotFieldWrite {p : Port} {k w : Nat} {i : SlotId} {s : State} (v : Word) (hk : k < 8) (hw : w < 20)
    (hi : i.val = 8 * portCode p + k) (hat : s.AtWord p (BitVec.ofNat 12 (0x100 + 32 * k + w))) :
    exec (.slotFieldWrite p v) s = .next (State.wordTaken p
      (if (s.slot i).state = .idle then s.updSlot i fun x => { x with fields := x.fields.write w v }
        else s.raise p .writeDiscarded)) := by
  have row : (0x100 + 32 * k + w) % 32 = w := by omega
  have body : s.writeSlotWord p v (BitVec.ofNat 12 (0x100 + 32 * k + w)) =
      if (s.slot i).state = .idle then s.updSlot i fun x => { x with fields := x.fields.write w v }
        else s.raise p .writeDiscarded := by
    unfold State.writeSlotWord
    rw [slotAt_slotAddress hk (by omega) hi, toNat_slotAddress hk (by omega), row]
  have taken := State.takeWord_of_atWord hat (wordKind_slotAddress hk hw) (State.writeSlotWord p v)
  rw [body] at taken
  exact congrArg Host.Outcome.next taken

/-- Settles O9: the write's body by the state of the slot, and the words that the stored fields read as. -/
theorem slotFieldWrites : Obligations.SlotFieldWrites := by
  intro p k w i v s hk hw hi hat
  have run := exec_slotFieldWrite v hk hw hi hat
  refine ⟨fun idle => ⟨(s.slot i).fields.write w v, SlotFields.word_write_self _ v hw,
    fun u hu hne => SlotFields.word_write_ne _ v hu hw hne, ?_⟩, fun busy => ?_⟩
  · rw [run, if_pos idle]
    exact congrArg (fun t => Host.Outcome.next (State.wordTaken p t)) (s.updSlot_congr i rfl)
  · rw [run, if_neg busy]

end Sys2Proof.Machine
end

section
/-! SUPPORT. The stamps that the arbiter issues (R42). -/
namespace Sys2Proof.Machine

/-- The counter after `j + 1` advances: the values 1 to 65535 in turn, never 0. -/
theorem toNat_stampAfter (j : Nat) (c : Word) : (stampAfter (j + 1) c).toNat = (c.toNat + j) % 65535 + 1 := by
  have one : ∀ c : Word, (if c = 65535 then 1 else c + 1 : Word).toNat = c.toNat % 65535 + 1 := fun c => by
    split
    · next h => subst h; rfl
    · next h =>
      have h' : c.toNat ≠ 65535 := fun e => h (BitVec.eq_of_toNat_eq e)
      have := c.isLt
      rw [BitVec.toNat_add]
      show (c.toNat + 1) % 65536 = c.toNat % 65535 + 1
      omega
  induction j generalizing c with
  | zero => exact one c
  | succ j ih =>
    have h := ih (if c = 65535 then 1 else c + 1)
    rw [one] at h
    exact h.trans (by omega)

theorem stampAfter_ne_zero (j : Nat) (c : Word) : stampAfter (j + 1) c ≠ 0 := fun h => by
  have := toNat_stampAfter j c
  rw [h] at this
  exact absurd this.symm (Nat.succ_ne_zero _)

/-- The stamps of 25 advances are distinct. -/
theorem stampAfter_inj {i j : Nat} {c : Word} (hi : i < 25) (hj : j < 25)
    (h : stampAfter (i + 1) c = stampAfter (j + 1) c) : i = j := by
  have hn := congrArg BitVec.toNat h
  rw [toNat_stampAfter, toNat_stampAfter] at hn
  omega

/-- The values passed over are in the order; and the search stops at a value outside it, or after `n` values passed over. -/
theorem freshStamp_spec (order : List Word) (n : Nat) (c : Word) :
    ∃ k, k ≤ n ∧ freshStamp order n c = stampAfter (k + 1) c ∧ (∀ j, j < k → stampAfter (j + 1) c ∈ order) ∧
      (freshStamp order n c ∉ order ∨ k = n) := by
  induction n generalizing c with
  | zero => exact ⟨0, Nat.le_refl 0, rfl, fun j hj => absurd hj (Nat.not_lt_zero j), .inr rfl⟩
  | succ n ih =>
    unfold freshStamp
    by_cases used : nextStamp c ∈ order
    · obtain ⟨k, hk, e, passed, stop⟩ := ih (nextStamp c)
      rw [if_pos used]
      refine ⟨k + 1, Nat.succ_le_succ hk, e, fun j hj => ?_, stop.imp_right (congrArg (· + 1))⟩
      cases j with
      | zero => exact used
      | succ j => exact passed j (Nat.lt_of_succ_lt_succ hj)
    · rw [if_neg used]
      exact ⟨0, Nat.zero_le _, rfl, fun j hj => absurd hj (Nat.not_lt_zero j), .inl used⟩

/-- A list that holds `n` distinct values is at least `n` long. -/
theorem le_length_of_distinct {f : Nat → Word} {n : Nat} {l : List Word}
    (distinct : ∀ i j, i < n → j < n → f i = f j → i = j) (inside : ∀ j, j < n → f j ∈ l) : n ≤ l.length := by
  induction n generalizing l with
  | zero => exact Nat.zero_le _
  | succ n ih =>
    have last := inside n (Nat.lt_succ_self n)
    have others : ∀ j, j < n → f j ∈ l.erase (f n) := fun j hj =>
      (List.mem_erase_of_ne fun e =>
        Nat.ne_of_lt hj (distinct j n (Nat.lt_succ_of_lt hj) (Nat.lt_succ_self n) e)).mpr
        (inside j (Nat.lt_succ_of_lt hj))
    have shorter := ih (fun i j hi hj => distinct i j (Nat.lt_succ_of_lt hi) (Nat.lt_succ_of_lt hj)) others
    rw [List.length_erase_of_mem last] at shorter
    have nonempty := List.length_pos_of_mem last
    omega

/-- An order of at most 24 stamps leaves one of 25 values free (R42). -/
theorem stampAfter_free {order : List Word} {c : Word} (h : order.length ≤ 24) :
    ¬∀ j, j < 25 → stampAfter (j + 1) c ∈ order := fun all => by
  have count := le_length_of_distinct (f := fun j => stampAfter (j + 1) c) (fun _ _ => stampAfter_inj) all
  omega

/-- The new stamp is the first value after the counter that is not in the order (R42). -/
theorem Arbiter.newStamp_spec {a : Arbiter} (h : a.stampOrder.length ≤ 24) :
    ∃ k, k < 25 ∧ a.newStamp = stampAfter (k + 1) a.stampCounter ∧ a.newStamp ∉ a.stampOrder ∧ a.newStamp ≠ 0 ∧
      ∀ j, j < k → stampAfter (j + 1) a.stampCounter ∈ a.stampOrder := by
  obtain ⟨k, hk, e, passed, stop⟩ := freshStamp_spec a.stampOrder 24 a.stampCounter
  refine ⟨k, by omega, e, fun used => ?_, fun zero => stampAfter_ne_zero k _ (e.symm.trans zero), passed⟩
  have last : k = 24 := stop.resolve_left fun free => free used
  refine stampAfter_free h (c := a.stampCounter) fun j hj => ?_
  by_cases hjk : j < k
  · exact passed j hjk
  · have : j = k := by omega
    exact this ▸ e ▸ used

end Sys2Proof.Machine
end

section
/-! SUPPORT. POST: its checks as the manual writes them, and its effect (R6-R10). -/
namespace Sys2Proof.Machine

/-! ### The checks -/

theorem ScanEntry.inRange_iff (e : ScanEntry) : e.inRange = true ↔ e.Valid := by
  simp only [ScanEntry.inRange, ScanEntry.Valid, Bool.and_eq_true, Bool.or_eq_true, decide_eq_true_eq, beq_iff_eq,
    and_assoc, or_assoc]

theorem SlotFields.sourceOf_isSome (f : SlotFields) : f.sourceOf.isSome = true ↔ f.source.toNat ≤ 9 := by
  unfold SlotFields.sourceOf triggerSource
  dsimp only
  (repeat' split) <;> simp <;> omega

theorem SlotFields.targetOf_isSome (f : SlotFields) :
    f.targetOf.isSome = true ↔ f.target.toNat ≤ 2 ∨ f.target.toNat = 3 ∧ f.base.toNat ≤ 15 := by
  unfold SlotFields.targetOf
  dsimp only
  (repeat' split) <;> simp <;> omega

theorem SlotFields.policyOf_isSome (f : SlotFields) : f.policyOf.isSome = true ↔ f.policy.toNat ≤ 1 := by
  unfold SlotFields.policyOf
  (repeat' split) <;> simp <;> omega

/-- Check 4 (R7). -/
theorem SlotFields.inRange_iff (f : SlotFields) : f.inRange = true ↔ f.Valid := by
  simp only [SlotFields.inRange, SlotFields.Valid, Bool.and_eq_true, decide_eq_true_eq, List.all_eq_true,
    List.mem_range, ScanEntry.inRange_iff, SlotFields.sourceOf_isSome, SlotFields.targetOf_isSome,
    SlotFields.policyOf_isSome, and_assoc]

/-- Check 5 (R6). -/
theorem State.sourceUsable_iff (s : State) (f : SlotFields) : s.sourceUsable f = true ↔ s.SourceUsable f := by
  unfold State.sourceUsable State.SourceUsable
  split
  · next n e =>
    have code := (f.sourceOf_timer n).mp e
    rw [bne_iff_ne]
    refine ⟨fun h m hm => ?_, fun h => h n code⟩
    have : m = n := Fin.ext (by omega)
    exact this ▸ h
  · next other =>
    exact iff_of_true rfl fun n hn => absurd ((f.sourceOf_timer n).mpr hn) (other n)

theorem PortState.queueSize_ne_zero (ps : PortState) (q : QueueId) :
    (ps.queueSize q != 0) = true ↔ (ps.queueConfig q).size ≠ 0 := by
  rw [bne_iff_ne]
  exact not_congr (BitVec.toNat_eq (y := 0)).symm

/-- The target of a code in range (§11.4). -/
theorem SlotFields.targetOf_cases (f : SlotFields) (h : f.target.toNat ≤ 2 ∨ f.target.toNat = 3 ∧ f.base.toNat ≤ 15) :
    f.target.toNat = 0 ∧ f.targetOf = some .none ∨ f.target.toNat = 1 ∧ f.targetOf = some (.queue .q0) ∨
      f.target.toNat = 2 ∧ f.targetOf = some (.queue .q1) ∨
        f.target.toNat = 3 ∧ f.targetOf = some (.slots f.base.toNat) := by
  unfold SlotFields.targetOf
  dsimp only
  (repeat' split) <;> simp <;> omega

/-- Check 6 (R8), for fields in range. -/
theorem PortState.targetUsable_iff (ps : PortState) {f : SlotFields} (h : f.Valid) :
    ps.targetUsable f = true ↔ ps.TargetUsable f := by
  obtain ⟨-, -, -, -, target, -⟩ := h
  unfold PortState.targetUsable PortState.TargetUsable
  obtain ⟨code, e⟩ | ⟨code, e⟩ | ⟨code, e⟩ | ⟨code, e⟩ := f.targetOf_cases target <;> rw [e, code]
  · simp
  · simpa [PortState.queueConfig] using ps.queueSize_ne_zero .q0
  · simpa [PortState.queueConfig] using ps.queueSize_ne_zero .q1
  · simp

/-- The part of check 7 that a STALL request's queue has to pass (R8). -/
theorem PortState.blocks_iff (ps : PortState) (q : QueueId) (n : Nat) :
    (!ps.overwrites q && decide (n ≤ ps.queueSize q)) = true ↔
      (ps.queueConfig q).mode ≠ 1 ∧ n ≤ (ps.queueConfig q).size.toNat := by
  unfold PortState.overwrites PortState.queueSize
  simp

/-- Check 7 (R8). -/
theorem PortState.policyUsable_iff (ps : PortState) (f : SlotFields) :
    ps.policyUsable f = true ↔ ps.PolicyUsable f := by
  unfold PortState.policyUsable PortState.PolicyUsable
  by_cases stall : f.policy.toNat = 1
  · rw [if_pos (f.policyOf_stall.mpr stall)]
    split
    · next q e =>
      have code := (f.targetOf_queue q).mp e
      rw [ps.blocks_iff]
      cases q <;> simp [stall, code, PortState.queueConfig]
    · next other =>
      have h0 := fun h => other .q0 ((f.targetOf_queue .q0).mpr h)
      have h1 := fun h => other .q1 ((f.targetOf_queue .q1).mpr h)
      refine iff_of_false Bool.false_ne_true fun h => ?_
      obtain ⟨code, -⟩ | ⟨code, -⟩ := h stall
      · exact h0 code
      · exact h1 code
  · rw [if_neg fun h => stall (f.policyOf_stall.mp h)]
    exact iff_of_true rfl fun h => absurd h stall

/-- The answer of POST for the port's own slot: the first check that fails, in the manual's words (R6). -/
theorem State.postAnswer_eq (s : State) (i : SlotId) [Decidable (s.slot i).fields.Valid]
    [Decidable (s.SourceUsable (s.slot i).fields)] [Decidable ((s.port (slotOwner i)).TargetUsable (s.slot i).fields)]
    [Decidable ((s.port (slotOwner i)).PolicyUsable (s.slot i).fields)] :
    s.postAnswer i = if (s.slot i).state ≠ .idle then .notIdle
      else if ¬(s.slot i).fields.Valid then .badField
      else if ¬s.SourceUsable (s.slot i).fields then .badTrigger
      else if ¬(s.port (slotOwner i)).TargetUsable (s.slot i).fields then .badTarget
      else if ¬(s.port (slotOwner i)).PolicyUsable (s.slot i).fields then .badPolicy
      else .ok := by
  unfold State.postAnswer
  dsimp only
  have flip : ∀ {b : Bool} {P : Prop}, (b = true ↔ P) → ((!b) = true ↔ ¬P) := fun h => by simp [← h]
  refine ite_congr rfl (fun _ => rfl) fun _ => ite_congr (propext (flip (SlotFields.inRange_iff _))) (fun _ => rfl)
    fun valid => ite_congr (propext (flip (s.sourceUsable_iff _))) (fun _ => rfl)
    fun _ => ite_congr (propext (flip (PortState.targetUsable_iff _ ?_))) (fun _ => rfl)
    fun _ => ite_congr (propext (flip (PortState.policyUsable_iff _ _))) (fun _ => rfl) fun _ => rfl
  exact Classical.not_not.mp valid

/-! ### The effect -/

theorem State.addTimerRef_timer {f : SlotFields} {n : Fin 4} (h : f.source.toNat = n.val + 1) (s : State) :
    s.addTimerRef f = s.updTimer n Timer.addRef := by
  unfold State.addTimerRef
  rw [(f.sourceOf_timer n).mpr h]

theorem State.addTimerRef_other {f : SlotFields} (h : ∀ n : Fin 4, f.source.toNat ≠ n.val + 1) (s : State) :
    s.addTimerRef f = s := by
  unfold State.addTimerRef
  split
  · next n e => exact absurd ((f.sourceOf_timer n).mp e) (h n)
  · rfl

/-- One request made DUE as one occurrence, in the words of the statements (R10, R42). -/
theorem State.makeDue_singleton (s : State) (i : SlotId) : s.makeDue [i] = s.madeDue i s.arbiter.newStamp := rfl

/-- An IMMEDIATE request becomes DUE (R9, R10). -/
theorem State.takePost_immediate {s : State} {i : SlotId} (h : (s.slot i).fields.source.toNat = 0) :
    s.takePost i = (s.updSlot i Slot.posted).madeDue i s.arbiter.newStamp := by
  unfold State.takePost
  rw [if_pos ((SlotFields.sourceOf_immediate _).mpr h), State.addTimerRef_other fun n => by omega]
  exact State.makeDue_singleton _ i

/-- Any other request becomes ARMED (R9). -/
theorem State.takePost_armed {s : State} {i : SlotId} (h : (s.slot i).fields.source.toNat ≠ 0) :
    s.takePost i = (s.updSlot i Slot.posted).addTimerRef (s.slot i).fields := by
  unfold State.takePost
  rw [if_neg fun e => h ((SlotFields.sourceOf_immediate _).mp e)]

/-! ### The command -/

theorem State.addTimerRef_withCode (s : State) (p : Port) (v : Word) (f : SlotFields) :
    (s.withCode p v).addTimerRef f = (s.addTimerRef f).withCode p v := by
  unfold State.addTimerRef
  split <;> rfl

theorem State.takePost_withCode (s : State) (p : Port) (v : Word) (i : SlotId) :
    (s.withCode p v).takePost i = (s.takePost i).withCode p v := by
  unfold State.takePost
  dsimp only
  rw [State.slot_withCode, State.updSlot_withCode, State.addTimerRef_withCode, State.makeDue_withCode]
  split <;> rfl

/-- The checks read no command word. -/
theorem State.postAnswer_withCode (s : State) (p : Port) (v : Word) (i : SlotId) :
    (s.withCode p v).postAnswer i = s.postAnswer i := by
  have target : ((s.withCode p v).port (slotOwner i)).targetUsable (s.slot i).fields =
      (s.port (slotOwner i)).targetUsable (s.slot i).fields := by
    rw [State.port_withCode]
    split <;> rfl
  have policy : ((s.withCode p v).port (slotOwner i)).policyUsable (s.slot i).fields =
      (s.port (slotOwner i)).policyUsable (s.slot i).fields := by
    rw [State.port_withCode]
    split <;> rfl
  have source : (s.withCode p v).sourceUsable (s.slot i).fields = s.sourceUsable (s.slot i).fields := rfl
  unfold State.postAnswer
  rw [State.slot_withCode]
  dsimp only
  rw [target, policy, source]

theorem exec_post (p : Port) (s : State) :
    exec (.post p) s = .next (s.command p 4 fun s => s.whenOpen p (State.post p)) := rfl

/-- A POST for a slot that is not the port's own changes nothing but the answer. -/
theorem exec_post_notOwner {s : State} {p : Port} (ho : s.OpenAtCommand p) (hn : ∀ i, ¬s.NamesOwnSlot p i) :
    exec (.post p) s = .next (s.answered p (BitVec.ofNat 16 4) 4 .notOwner) := by
  rw [exec_post, State.openCommand_answered ho]
  unfold State.post
  rw [State.param_withCode, State.param_zero, ownSlot_none hn]

/-- A POST that a check refuses changes nothing but the answer (R6). -/
theorem exec_post_refused {s : State} {p : Port} {i : SlotId} {r : ResultCode} (ho : s.OpenAtCommand p)
    (hn : s.NamesOwnSlot p i) (ha : s.postAnswer i = r) (hr : r ≠ .ok) :
    exec (.post p) s = .next (s.answered p (BitVec.ofNat 16 4) 4 r) := by
  rw [exec_post, State.openCommand_answered ho]
  unfold State.post
  rw [State.param_withCode, State.param_zero, ownSlot_of hn]
  dsimp only
  rw [State.postAnswer_withCode, ha, if_neg hr]

/-- A POST that passes its checks is taken and answered OK (R6, R9). -/
theorem exec_post_taken {s : State} {p : Port} {i : SlotId} (ho : s.OpenAtCommand p) (hn : s.NamesOwnSlot p i)
    (ha : s.postAnswer i = .ok) :
    exec (.post p) s = .next ((s.takePost i).answered p (BitVec.ofNat 16 4) 4 .ok) := by
  rw [exec_post, State.openCommand_answered ho]
  unfold State.post
  rw [State.param_withCode, State.param_zero, ownSlot_of hn]
  dsimp only
  rw [State.postAnswer_withCode, ha, if_pos rfl, State.takePost_withCode]

/-- Settles O20: the checks in their order, the three kinds of source, and the search for the new stamp. -/
theorem postChecksAndEffect : Obligations.PostChecksAndEffect := by
  classical
  refine ⟨fun p s ho => ⟨fun hn => ⟨_, exec_post_notOwner ho hn⟩, fun i hn => ?_⟩,
    fun p i s ho hn idle valid source target policy => ?_, fun a h => Arbiter.newStamp_spec h⟩
  · have answer := s.postAnswer_eq i
    rw [hn.2] at answer
    refine ⟨fun busy => ⟨_, exec_post_refused ho hn ?_ nofun⟩,
      fun idle invalid => ⟨_, exec_post_refused ho hn ?_ nofun⟩,
      fun idle valid unusable => ⟨_, exec_post_refused ho hn ?_ nofun⟩,
      fun idle valid source unusable => ⟨_, exec_post_refused ho hn ?_ nofun⟩,
      fun idle valid source target unusable => ⟨_, exec_post_refused ho hn ?_ nofun⟩⟩
    · rw [answer, if_pos busy]
    · rw [answer, if_neg (not_not_intro idle), if_pos invalid]
    · rw [answer, if_neg (not_not_intro idle), if_neg (not_not_intro valid), if_pos unusable]
    · rw [answer, if_neg (not_not_intro idle), if_neg (not_not_intro valid), if_neg (not_not_intro source), if_pos unusable]
    · rw [answer, if_neg (not_not_intro idle), if_neg (not_not_intro valid), if_neg (not_not_intro source),
        if_neg (not_not_intro target), if_pos unusable]
  · have answer : s.postAnswer i = .ok := by
      rw [s.postAnswer_eq i, hn.2, if_neg (not_not_intro idle), if_neg (not_not_intro valid), if_neg (not_not_intro source),
        if_neg (not_not_intro target), if_neg (not_not_intro policy)]
    have taken := exec_post_taken ho hn answer
    refine ⟨fun h => ⟨BitVec.ofNat 16 4, ?_⟩, fun n h => ⟨BitVec.ofNat 16 4, ?_⟩, fun h => ⟨BitVec.ofNat 16 4, ?_⟩⟩
    · rw [taken, State.takePost_immediate h]
      rfl
    · rw [taken, State.takePost_armed (by omega), State.addTimerRef_timer h]
      rfl
    · rw [taken, State.takePost_armed (by omega), State.addTimerRef_other fun n => by omega]
      rfl

end Sys2Proof.Machine
end

section
/-! SUPPORT. The Request Table's taking of sweep reports (R13, R14, R67, R81). -/
namespace Sys2Proof.Machine

/-- The posting has reached its sweep count, which is not 0 (R13, R14). -/
theorem Slot.isFinal_iff (x : Slot) :
    x.isFinal = true ↔ x.fields.sweepCount.toNat ≠ 0 ∧ x.counters.sweepsDone.toNat = x.fields.sweepCount.toNat := by
  unfold Slot.isFinal
  have h := x.fields.sweepCount.isLt
  rw [Bool.and_eq_true, bne_iff_ne, beq_iff_eq, ne_eq, BitVec.toNat_eq, BitVec.toNat_eq, BitVec.toNat_setWidth,
    Nat.mod_eq_of_lt (by omega)]
  rfl

/-- Slot `i` with one more sweep done (R13, R14). -/
def State.sweepCounted (i : SlotId) (s : State) : State := s.updCounters i Counters.completeSweep

/-- The sweep just completed is the last of its posting: the sweeps done reach its sweep count, which is not 0 (R13, R14). -/
def Slot.LastSweep (x : Slot) : Prop :=
  x.fields.sweepCount.toNat ≠ 0 ∧ (x.counters.sweepsDone + 1).toNat = x.fields.sweepCount.toNat

theorem State.isFinal_sweepCounted (s : State) (i : SlotId) :
    ((s.sweepCounted i).slot i).isFinal = true ↔ (s.slot i).LastSweep := by
  rw [Slot.isFinal_iff]
  unfold State.sweepCounted
  rw [State.slot_updCounters, if_pos rfl]
  rfl

/-- A completed sweep of a RUNNING request, by what follows it (R13). -/
theorem State.completeSweep_running {s : State} {i : SlotId} (h : (s.slot i).state = .running) :
    s.completeSweep i = if ((s.sweepCounted i).slot i).isFinal then (s.sweepCounted i).endPosting i (some .completed)
      else if (s.slot i).pendingTrigger then
        ((s.sweepCounted i).updSlot i fun x => { x with pendingTrigger := false }).makeDue [i]
      else if (s.slot i).fields.sourceOf = some .immediate then (s.sweepCounted i).makeDue [i]
      else (s.sweepCounted i).updSlot i fun x => { x with state := .armed } := by
  have pending : ((s.sweepCounted i).slot i).pendingTrigger = (s.slot i).pendingTrigger := by
    unfold State.sweepCounted
    rw [State.slot_updCounters, if_pos rfl]
  have fields := (s.kept_updCounters i Counters.completeSweep).fields i
  unfold State.completeSweep
  rw [h]
  dsimp only
  rw [fields]
  unfold State.sweepCounted at pending ⊢
  rw [pending]

/-- A completed sweep of a DRAINING request ends the posting, by the cause of its drain (R14). -/
theorem State.completeSweep_draining {s : State} {i : SlotId} {d : Drain} {final : Bool}
    (h : (s.slot i).state = .draining d) (hf : final = true ↔ (s.slot i).LastSweep) :
    s.completeSweep i = (s.sweepCounted i).endPosting i (some (d.outcome final)) := by
  rw [Bool.eq_iff_iff.mpr (hf.trans (s.isFinal_sweepCounted i).symm)]
  unfold State.completeSweep
  rw [h]
  rfl

/-- A cut sweep of a DRAINING request ends the posting (R14, R81). -/
theorem State.cutSweep_draining {s : State} {i : SlotId} {d : Drain} (h : (s.slot i).state = .draining d) :
    s.cutSweep i = s.endPosting i (some d.cutOutcome) := by
  unfold State.cutSweep
  rw [h]

/-- Where no report that waits is picked, none is taken. -/
theorem State.takeReports_none {s : State} {which : SlotId → Bool} (h : ∀ i ∈ s.seq.reports, which i = false) :
    s.takeReports which = s := by
  have picked : s.seq.reports.filter which = [] := by
    rw [List.filter_eq_nil_iff]
    exact fun i hi => by simp [h i hi]
  have left : (s.seq.reports.filter fun i => !which i) = s.seq.reports := by
    rw [List.filter_eq_self]
    exact fun i hi => by simp [h i hi]
  unfold State.takeReports
  rw [picked, left]
  rfl

/-- Settles O22: by the state of the request whose sweep is reported. -/
theorem sweepEnds : Obligations.SweepEnds := by
  refine ⟨fun _ => rfl, fun _ => rfl, fun _ _ => ⟨rfl, rfl⟩, fun which s => ⟨rfl, State.takeReports_none⟩, fun i s => ?_⟩
  have ongoing : ¬(s.slot i).LastSweep → ¬((s.sweepCounted i).slot i).isFinal = true :=
    fun more h => more ((s.isFinal_sweepCounted i).mp h)
  have immediate : (s.slot i).fields.sourceOf = some .immediate ↔ (s.slot i).fields.source = 0 :=
    (SlotFields.sourceOf_immediate _).trans (BitVec.toNat_eq (y := 0)).symm
  refine ⟨fun running final => ?_, fun running more trigger => ?_, fun running more none source => ?_,
    fun running more none source => ?_, fun cut draining => ⟨fun final => ?_, fun more => ?_, ?_⟩,
    fun cut draining => ⟨fun final => ?_, fun more => ?_, ?_⟩⟩
  · exact (State.completeSweep_running running).trans (if_pos ((s.isFinal_sweepCounted i).mpr final))
  · refine (State.completeSweep_running running).trans ?_
    rw [if_neg (ongoing more), if_pos trigger, State.makeDue_singleton]
    rfl
  · refine (State.completeSweep_running running).trans ?_
    rw [if_neg (ongoing more), if_neg (by simp [none]), if_pos (immediate.mpr source),
      State.makeDue_singleton]
    rfl
  · refine (State.completeSweep_running running).trans ?_
    rw [if_neg (ongoing more), if_neg (by simp [none]), if_neg (fun h => source (immediate.mp h))]
    rfl
  · have ended := State.completeSweep_draining draining (final := true) (iff_of_true rfl final)
    exact ended
  · have ended := State.completeSweep_draining draining (final := false) (iff_of_false Bool.false_ne_true more)
    exact ended
  · have ended := State.cutSweep_draining draining
    exact ended
  · have ended := State.completeSweep_draining draining (final := true) (iff_of_true rfl final)
    exact ended
  · have ended := State.completeSweep_draining draining (final := false) (iff_of_false Bool.false_ne_true more)
    exact ended
  · have ended := State.cutSweep_draining draining
    exact ended

end Sys2Proof.Machine
end

section
/-! SUPPORT. The ending of a posting, part by part (R16, R20, R21, R30, R43, R51). -/
namespace Sys2Proof.Machine

/-! ### The return of STALLED requests (R51) -/

/-- The target code of a queue (§11.4). -/
def queueCode : QueueId → Nat
  | .q0 => 1
  | .q1 => 2

theorem queueCode_inj {q r : QueueId} (h : queueCode q = queueCode r) : q = r := by
  revert h
  cases q <;> cases r <;> decide

theorem SlotFields.targetOf_queueCode (f : SlotFields) (q : QueueId) :
    f.targetOf = some (.queue q) ↔ f.target.toNat = queueCode q := by
  rw [f.targetOf_queue]
  cases q <;> rfl

theorem Slot.returnsFrom_iff (x : Slot) (q : QueueId) (room : Nat) :
    x.returnsFrom q room = true ↔
      x.state = .stalled ∧ x.fields.target.toNat = queueCode q ∧ x.fields.scanLength.toNat ≤ room := by
  unfold Slot.returnsFrom
  rw [Bool.and_eq_true, Bool.and_eq_true, beq_iff_eq, beq_iff_eq, decide_eq_true_eq, SlotFields.targetOf_queueCode,
    and_assoc]

/-- Of the slots `l`, those that fit the room become DUE; nothing else changes. -/
theorem State.returnStalled_fold (q : QueueId) (room : Nat) (l : List SlotId) (s : State) :
    ∃ v, l.foldl (fun s i =>
        if (s.slot i).returnsFrom q room then s.updSlot i fun x => { x with state := .due } else s) s =
          { s with slots := v } ∧
      ∀ j, tget v j = if j ∈ l ∧ (s.slot j).returnsFrom q room = true then { s.slot j with state := .due }
        else s.slot j := by
  induction l generalizing s with
  | nil => exact ⟨s.slots, rfl, fun j => by simp [State.slot]⟩
  | cons i l ih =>
    rw [List.foldl_cons]
    by_cases hi : (s.slot i).returnsFrom q room = true
    · have due : ({ s.slot i with state := .due } : Slot).returnsFrom q room = false := rfl
      rw [if_pos hi]
      obtain ⟨v, e, h⟩ := ih (s.updSlot i fun x => { x with state := .due })
      refine ⟨v, e, fun j => ?_⟩
      rw [h j, State.slot_updSlot]
      by_cases hj : j = i
      · subst hj
        simp [hi, due]
      · simp [hj]
    · rw [if_neg hi]
      obtain ⟨v, e, h⟩ := ih s
      refine ⟨v, e, fun j => ?_⟩
      rw [h j]
      by_cases hj : j = i
      · subst hj
        simp [hi]
      · simp [hj]

/-- Every STALLED request of the port on the queue that fits its room becomes DUE (R51). -/
theorem State.returnStalled_eq (s : State) (p : Port) (q : QueueId) :
    ∃ v, s.returnStalled p q = { s with slots := v } ∧
      ∀ j, tget v j = if slotOwner j = p ∧ (s.slot j).returnsFrom q ((s.port p).room q) = true then
        { s.slot j with state := .due } else s.slot j := by
  obtain ⟨v, e, h⟩ := State.returnStalled_fold q ((s.port p).room q) (portSlots p) s
  refine ⟨v, e, fun j => ?_⟩
  rw [h j]
  simp only [mem_portSlots]

/-! ### The return of a reservation (R16, R134) -/

/-- The port with what slot `x` still holds returned to its target queue. -/
def PortState.giveBack (x : Slot) (ps : PortState) : PortState :=
  match x.fields.targetOf with
  | some (.queue q) => ps.updRing q fun r => { r with reserved := r.reserved - x.held }
  | _ => ps

theorem PortState.giveBack_none {x : Slot} (h : x.held = 0) (ps : PortState) : ps.giveBack x = ps := by
  unfold PortState.giveBack
  rw [h]
  split
  · next q _ => cases q <;> rfl
  · rfl

/-- The return of a reservation, by the code of the target. -/
theorem PortState.giveBack_eq (x : Slot) (ps : PortState) :
    ps.giveBack x = if x.fields.target.toNat = 1 then
        { ps with ring0 := { ps.ring0 with reserved := ps.ring0.reserved - x.held } }
      else if x.fields.target.toNat = 2 then
        { ps with ring1 := { ps.ring1 with reserved := ps.ring1.reserved - x.held } }
      else ps := by
  unfold PortState.giveBack
  split
  · next q e =>
    have code := (SlotFields.targetOf_queueCode _ q).mp e
    cases q
    · exact (if_pos code).symm
    · rw [code]
      rfl
  · next other =>
    have not0 : ¬x.fields.target.toNat = 1 := fun h => other .q0 ((SlotFields.targetOf_queueCode _ .q0).mpr h)
    have not1 : ¬x.fields.target.toNat = 2 := fun h => other .q1 ((SlotFields.targetOf_queueCode _ .q1).mpr h)
    rw [if_neg not0, if_neg not1]

theorem State.updPort_id {s : State} {p : Port} {f : PortState → PortState} (h : f (s.port p) = s.port p) :
    s.updPort p f = s := by
  apply State.ext_parts <;> first | rfl | (intro j; rfl) | skip
  intro q
  rw [State.port_updPort]
  split
  · next e => exact e ▸ h
  · rfl

/-- Slot `j` stands STALLED on the queue of port `p` to which `x` returns what it held, and fits the room that results. -/
def State.StalledFits (s : State) (p : Port) (x : Slot) (j : SlotId) : Prop :=
  ∃ q, x.fields.target.toNat = queueCode q ∧ 0 < x.held ∧ slotOwner j = p ∧
    (s.slot j).returnsFrom q (((s.port p).giveBack x).room q) = true

/-- The return of a reservation whose increase of room is examined: the queue's reserved count falls, and the STALLED
requests that then fit become DUE (R16, R51). -/
theorem State.returnHeld_eq (s : State) (p : Port) (x : Slot) :
    ∃ v, s.returnHeld p x true = { s.updPort p (PortState.giveBack x) with slots := v } ∧
      ∀ j, (s.StalledFits p x j → tget v j = { s.slot j with state := .due }) ∧
        (¬s.StalledFits p x j → tget v j = s.slot j) := by
  by_cases returned : 0 < x.held ∧ ∃ q, x.fields.targetOf = some (.queue q)
  · obtain ⟨held, q, target⟩ := returned
    have code := (SlotFields.targetOf_queueCode _ q).mp target
    have given : PortState.giveBack x = fun ps => ps.updRing q fun r => { r with reserved := r.reserved - x.held } := by
      funext ps
      unfold PortState.giveBack
      rw [target]
    have body : s.returnHeld p x true = (s.updPort p (PortState.giveBack x)).returnStalled p q := by
      unfold State.returnHeld
      rw [if_neg (Nat.pos_iff_ne_zero.mp held), target, given]
      rfl
    obtain ⟨v, e, h⟩ := (s.updPort p (PortState.giveBack x)).returnStalled_eq p q
    rw [State.port_updPort_self] at h
    refine ⟨v, body.trans e, fun j => ⟨fun ⟨q', code', _, own, fits⟩ => ?_, fun unfit => ?_⟩⟩
    · have same : q' = q := queueCode_inj (code'.symm.trans code)
      exact (h j).trans (if_pos ⟨own, same ▸ fits⟩)
    · exact (h j).trans (if_neg fun ⟨own, fits⟩ => unfit ⟨q, code, held, own, fits⟩)
  · have unfit : ∀ j, ¬s.StalledFits p x j := fun j ⟨q, code, held, _⟩ =>
      returned ⟨held, q, (SlotFields.targetOf_queueCode _ q).mpr code⟩
    have given : (s.port p).giveBack x = s.port p := by
      by_cases held : x.held = 0
      · exact PortState.giveBack_none held _
      · unfold PortState.giveBack
        split
        · next q e => exact absurd ⟨Nat.pos_of_ne_zero held, q, e⟩ returned
        · rfl
    have body : s.returnHeld p x true = s := by
      unfold State.returnHeld
      split
      · rfl
      · next held =>
        split
        · next q e => exact absurd ⟨Nat.pos_of_ne_zero held, q, e⟩ returned
        · rfl
    exact ⟨s.slots, by rw [body, State.updPort_id given],
      fun j => ⟨fun fits => absurd fits (unfit j), fun _ => rfl⟩⟩

/-! ### The timer reference and the stamps -/

/-- The dropping of a reference in the manual's words (R30). -/
theorem Timer.dropRef_eq (t : Timer) :
    t.dropRef = if t.refs - 1 = 0 ∧ (t.state = .orphanedRunning ∨ t.state = .orphanedStopped) then
      { t with refs := 0, state := .free, count := 0 } else { t with refs := t.refs - 1 } := by
  unfold Timer.dropRef
  dsimp only
  split
  · next h => rw [h.1]
  · rfl

theorem State.timer_dropTimerRef (s : State) (f : SlotFields) (n : Fin 4) :
    (s.dropTimerRef f).timer n = if f.source.toNat = n.val + 1 then (s.timer n).dropRef else s.timer n := by
  unfold State.dropTimerRef
  split
  · next m e =>
    have code := (f.sourceOf_timer m).mp e
    rw [State.timer_updTimer]
    exact ite_congr (propext ⟨fun h => h ▸ code, fun h => Fin.ext (by omega)⟩) (fun _ => rfl) fun _ => rfl
  · next other => exact (if_neg fun h => other n ((f.sourceOf_timer n).mpr h)).symm

/-- The drop of a timer reference touches the timers alone. -/
theorem State.dropTimerRef_eq (s : State) (f : SlotFields) : ∃ ts, s.dropTimerRef f = { s with timers := ts } := by
  unfold State.dropTimerRef
  split
  · exact ⟨_, rfl⟩
  · exact ⟨s.timers, rfl⟩

theorem Slot.holdsStamp_iff (x : Slot) : x.holdsStamp = true ↔ x.state = .due ∨ x.state = .stalled := by
  unfold Slot.holdsStamp
  rw [Bool.or_eq_true, beq_iff_eq, beq_iff_eq]

/-- A stamp is in use while a DUE or STALLED request holds it (R41). -/
theorem State.stampInUse_iff (s : State) (w : Word) :
    s.stampInUse w = true ↔ ∃ j, ((s.slot j).state = .due ∨ (s.slot j).state = .stalled) ∧ (s.slot j).dueStamp = w := by
  simp only [State.stampInUse, List.any_eq_true, mem_allSlots, true_and, Bool.and_eq_true, beq_iff_eq,
    Slot.holdsStamp_iff]

/-! ### The ending -/

/-- `s` with the posting of slot `i` ended with outcome `o`, but for the return of its reservation. -/
def State.postingEnded (i : SlotId) (o : EndOutcome) (s : State) : State :=
  (((((s.updPort (slotOwner i) (PortState.addCompletion (s.completionRecord i o))).updSlot i Slot.ended).dropTimerRef
    (s.slot i).fields).pruneStamps).forgetCut i)

theorem State.endPosting_some {s : State} {i : SlotId} (h : (s.slot i).state ≠ .idle) (o : EndOutcome) :
    s.endPosting i (some o) = (s.postingEnded i o).returnHeld (slotOwner i) (s.slot i) true := by
  unfold State.endPosting
  rw [if_neg h]
  rfl

theorem State.slot_postingEnded (s : State) (i j : SlotId) (o : EndOutcome) :
    (s.postingEnded i o).slot j = if j = i then (s.slot j).ended else s.slot j := by
  obtain ⟨ts, e⟩ := ((s.updPort (slotOwner i) (PortState.addCompletion (s.completionRecord i o))).updSlot i
    Slot.ended).dropTimerRef_eq (s.slot i).fields
  unfold State.postingEnded
  rw [State.slot_forgetCut, State.slot_pruneStamps, e]
  exact State.slot_updSlot _ i j Slot.ended

theorem State.port_postingEnded (s : State) (i : SlotId) (q : Port) (o : EndOutcome) :
    (s.postingEnded i o).port q =
      if q = slotOwner i then (s.port q).addCompletion (s.completionRecord i o) else s.port q := by
  obtain ⟨ts, e⟩ := ((s.updPort (slotOwner i) (PortState.addCompletion (s.completionRecord i o))).updSlot i
    Slot.ended).dropTimerRef_eq (s.slot i).fields
  unfold State.postingEnded
  rw [State.port_forgetCut, State.port_pruneStamps, e]
  exact State.port_updPort s _ q _

theorem State.timer_postingEnded (s : State) (i : SlotId) (n : Fin 4) (o : EndOutcome) :
    (s.postingEnded i o).timer n =
      if (s.slot i).fields.source.toNat = n.val + 1 then (s.timer n).dropRef else s.timer n :=
  State.timer_dropTimerRef _ _ n

theorem State.seq_postingEnded (s : State) (i : SlotId) (o : EndOutcome) :
    (s.postingEnded i o).seq = { s.seq with cuts := s.seq.cuts.filter (· != i) } := by
  obtain ⟨ts, e⟩ := ((s.updPort (slotOwner i) (PortState.addCompletion (s.completionRecord i o))).updSlot i
    Slot.ended).dropTimerRef_eq (s.slot i).fields
  unfold State.postingEnded
  rw [e]
  rfl

/-- Exactly the stamps that some request still holds stay, in their order (R42, R43). -/
theorem State.arbiter_postingEnded (s : State) (i : SlotId) (o : EndOutcome) :
    (s.postingEnded i o).arbiter =
      { s.arbiter with stampOrder := s.arbiter.stampOrder.filter (s.postingEnded i o).stampInUse } := by
  obtain ⟨ts, e⟩ := ((s.updPort (slotOwner i) (PortState.addCompletion (s.completionRecord i o))).updSlot i
    Slot.ended).dropTimerRef_eq (s.slot i).fields
  unfold State.postingEnded
  rw [e]
  rfl

/-- The record is appended with COMPLETION, or lost with COMPLETION_LOST (R21). -/
theorem PortState.addCompletion_eq (r : CompletionRecord) (ps : PortState) :
    ps.addCompletion r = if ps.completions.length < 16 then
      { ps.raise .completion with completions := ps.completions ++ [r] } else ps.raise .completionLost := rfl

/-- The ending as its parts and the return of the reservation over them. -/
theorem State.endPosting_eq {s : State} {i : SlotId} (h : (s.slot i).state ≠ .idle) (o : EndOutcome) :
    ∃ v, s.endPosting i (some o) =
        { (s.postingEnded i o).updPort (slotOwner i) (PortState.giveBack (s.slot i)) with slots := v } ∧
      ∀ j, ((s.postingEnded i o).StalledFits (slotOwner i) (s.slot i) j →
          tget v j = { (s.postingEnded i o).slot j with state := .due }) ∧
        (¬(s.postingEnded i o).StalledFits (slotOwner i) (s.slot i) j → tget v j = (s.postingEnded i o).slot j) := by
  rw [State.endPosting_some h]
  exact (s.postingEnded i o).returnHeld_eq (slotOwner i) (s.slot i)

/-- The request of slot `j` fits the room of its queue `q` once the posting of slot `i` has ended (R51). -/
def State.FitsAfter (s : State) (i : SlotId) (o : EndOutcome) (j : SlotId) (q : QueueId) : Prop :=
  (s.slot j).state = .stalled ∧ slotOwner j = slotOwner i ∧ (s.slot i).fields.target.toNat = queueCode q ∧
    (s.slot j).fields.target.toNat = queueCode q ∧ 0 < (s.slot i).held ∧
      (s.slot j).fields.scanLength.toNat ≤ ((s.endPosting i (some o)).port (slotOwner i)).room q

section
variable {s : State} {i : SlotId} (active : (s.slot i).state ≠ .idle) (o : EndOutcome)
include active

theorem State.port_endPosting (q : Port) :
    (s.endPosting i (some o)).port q = if q = slotOwner i then
      ((s.port q).addCompletion (s.completionRecord i o)).giveBack (s.slot i) else s.port q := by
  obtain ⟨v, e, _⟩ := State.endPosting_eq active o
  rw [e]
  refine (State.port_updPort _ _ q _).trans ?_
  rw [State.port_postingEnded]
  split <;> rfl

theorem State.timer_endPosting (n : Fin 4) :
    (s.endPosting i (some o)).timer n =
      if (s.slot i).fields.source.toNat = n.val + 1 then (s.timer n).dropRef else s.timer n := by
  obtain ⟨v, e, _⟩ := State.endPosting_eq active o
  rw [e]
  exact s.timer_postingEnded i n o

theorem State.seq_endPosting :
    (s.endPosting i (some o)).seq = { s.seq with cuts := s.seq.cuts.filter (· != i) } := by
  obtain ⟨v, e, _⟩ := State.endPosting_eq active o
  rw [e]
  exact s.seq_postingEnded i o

theorem State.arbiter_endPosting :
    (s.endPosting i (some o)).arbiter =
      { s.arbiter with stampOrder := s.arbiter.stampOrder.filter (s.postingEnded i o).stampInUse } := by
  obtain ⟨v, e, _⟩ := State.endPosting_eq active o
  rw [e]
  exact s.arbiter_postingEnded i o

/-- The ended slot is IDLE, so that it is not among those that return. -/
theorem State.slot_endPosting_self : (s.endPosting i (some o)).slot i = (s.slot i).ended := by
  obtain ⟨v, e, slots⟩ := State.endPosting_eq active o
  have unfit : ¬(s.postingEnded i o).StalledFits (slotOwner i) (s.slot i) i := fun ⟨q, _, _, _, stalled⟩ => by
    rw [State.slot_postingEnded, if_pos rfl, Slot.returnsFrom_iff] at stalled
    exact absurd stalled.1 nofun
  have slot := (slots i).2 unfit
  rw [State.slot_postingEnded, if_pos rfl] at slot
  rw [e]
  exact slot

theorem State.stalledFits_iff {j : SlotId} (hj : j ≠ i) :
    (s.postingEnded i o).StalledFits (slotOwner i) (s.slot i) j ↔ ∃ q, s.FitsAfter i o j q := by
  have port : (s.endPosting i (some o)).port (slotOwner i) =
      ((s.postingEnded i o).port (slotOwner i)).giveBack (s.slot i) := by
    rw [State.port_endPosting active, State.port_postingEnded, if_pos rfl, if_pos rfl]
  refine exists_congr fun q => ?_
  rw [State.slot_postingEnded, if_neg hj, Slot.returnsFrom_iff, ← port]
  exact ⟨fun ⟨code, held, owner, stalled, target, len⟩ => ⟨stalled, owner, code, target, held, len⟩,
    fun ⟨stalled, owner, code, target, held, len⟩ => ⟨code, held, owner, stalled, target, len⟩⟩

/-- Another slot becomes DUE if it is STALLED on the queue and fits, and else keeps everything. -/
theorem State.slot_endPosting_ne {j : SlotId} (hj : j ≠ i) :
    ((∃ q, s.FitsAfter i o j q) → (s.endPosting i (some o)).slot j = { s.slot j with state := .due }) ∧
      ((¬∃ q, s.FitsAfter i o j q) → (s.endPosting i (some o)).slot j = s.slot j) := by
  obtain ⟨v, e, slots⟩ := State.endPosting_eq active o
  have slot := slots j
  rw [State.slot_postingEnded, if_neg hj, State.stalledFits_iff active o hj] at slot
  rw [e]
  exact slot

/-- The stamps in use once the posting has ended: a request that returns from STALLED keeps its own (R51). -/
theorem State.stampInUse_postingEnded (w : Word) :
    (s.postingEnded i o).stampInUse w = true ↔
      ∃ j, (((s.endPosting i (some o)).slot j).state = .due ∨ ((s.endPosting i (some o)).slot j).state = .stalled) ∧
        ((s.endPosting i (some o)).slot j).dueStamp = w := by
  obtain ⟨v, e, slots⟩ := State.endPosting_eq active o
  rw [State.stampInUse_iff]
  refine exists_congr fun j => ?_
  have slot : (s.endPosting i (some o)).slot j = tget v j := by
    rw [e]
    rfl
  rw [slot]
  by_cases fits : (s.postingEnded i o).StalledFits (slotOwner i) (s.slot i) j
  · rw [(slots j).1 fits]
    obtain ⟨q, _, _, _, stalled⟩ := fits
    rw [Slot.returnsFrom_iff] at stalled
    simp [stalled.1]
  · rw [(slots j).2 fits]

end

/-- Settles O21: part by part, what the ending makes of the slots, the ports, the timers, the arbiter and the sequencer. -/
theorem postingEnds : Obligations.PostingEnds := by
  intro i o s active x p t record written fits
  have kept := s.kept_endPosting i (some o)
  have fitsAfter : ∀ j, (∃ q, s.FitsAfter i o j q) ↔ fits j .q0 1 ∨ fits j .q1 2 := fun j =>
    ⟨fun ⟨q, h⟩ => match q with | .q0 => .inl h | .q1 => .inr h, fun h => h.elim (⟨.q0, ·⟩) (⟨.q1, ·⟩)⟩
  have arbiter := State.arbiter_endPosting active o
  refine ⟨State.slot_endPosting_self active o, fun j hj => ⟨fun h => ?_, fun h0 h1 => ?_⟩, ?_, fun q hq => ?_,
    fun n hn => ?_, fun n hn => ?_, ⟨?_, fun w => ?_⟩, ?_, ?_, kept.lines, kept.cal, kept.store, kept.now,
    State.seq_endPosting active o⟩
  · exact (State.slot_endPosting_ne active o hj).1 ((fitsAfter j).mpr h)
  · exact (State.slot_endPosting_ne active o hj).2 fun h => ((fitsAfter j).mp h).elim h0 h1
  · exact (State.port_endPosting active o p).trans ((if_pos rfl).trans (PortState.giveBack_eq x written))
  · exact (State.port_endPosting active o q).trans (if_neg hq)
  · exact (State.timer_endPosting active o n).trans (if_neg hn)
  · exact (State.timer_endPosting active o n).trans ((if_pos hn).trans (Timer.dropRef_eq _))
  · exact (congrArg Arbiter.stampOrder arbiter) ▸ List.filter_sublist
  · rw [congrArg Arbiter.stampOrder arbiter, ← State.stampInUse_postingEnded active o]
    exact List.mem_filter
  · exact (congrArg Arbiter.stampCounter arbiter :)
  · exact (congrArg Arbiter.lastGranted arbiter :)

end Sys2Proof.Machine
end

section
/-! SUPPORT. The words of a port's window as numbers: each field at its bits (R22, R137, R140, R144, R153, chapter 11). -/
namespace Sys2Proof.Machine

/-! ### Packed fields -/

theorem putNum_eq (low n : Nat) : putNum low n = numWord (2 ^ low * n) := by
  apply BitVec.eq_of_toNat_eq
  simp [putNum, numWord, Nat.shiftLeft_eq, Nat.mul_comm]

theorem putNum_zero (n : Nat) : putNum 0 n = numWord n := by
  rw [putNum_eq, Nat.pow_zero, Nat.one_mul]

theorem putBits_eq (low : Nat) {n : Nat} (x : BitVec n) : putBits low x = putNum low x.toNat := by
  have word : x.setWidth 16 = numWord x.toNat := BitVec.eq_of_toNat_eq (by simp [numWord])
  unfold putBits putNum
  rw [word]

theorem putBool_eq (low : Nat) (b : Bool) : putBool low b = putNum low b.toNat := by
  cases b
  · simp [putBool, putNum, numWord]
  · rfl

/-- A field above the bits of a number adds to it. -/
theorem numWord_or_putNum {low a : Nat} (b : Nat) (h : a < 2 ^ low) :
    numWord a ||| putNum low b = numWord (a + 2 ^ low * b) := by
  rw [putNum_eq, Nat.add_comm, Nat.two_pow_add_eq_or_of_lt h, BitVec.or_comm]
  exact BitVec.ofNat_or.symm

/-! ### Request slots (§11.4) -/

theorem SlotFields.word_zero (f : SlotFields) : f.word 0 = numWord (f.tag.toNat + 256 * f.priority.toNat) := by
  show putBits 0 f.tag ||| putBits 8 f.priority = _
  simp (disch := omega) only [putBits_eq, putNum_zero, numWord_or_putNum, Nat.reducePow]

theorem SlotFields.word_one (f : SlotFields) :
    f.word 1 = numWord (f.scanLength.toNat + 256 * f.source.toNat + 4096 * f.strict.toNat + 8192 * f.share.toNat +
      16384 * f.raw.toNat) := by
  have strict := f.strict.toNat_lt
  have share := f.share.toNat_lt
  show putBits 0 f.scanLength ||| putBits 8 f.source ||| putBool 12 f.strict ||| putBool 13 f.share |||
    putBool 14 f.raw = _
  simp (disch := omega) only [putBits_eq, putBool_eq, putNum_zero, numWord_or_putNum, Nat.reducePow]

theorem SlotFields.word_three (f : SlotFields) :
    f.word 3 = numWord (f.target.toNat + 16 * f.base.toNat + 4096 * f.policy.toNat) := by
  show putBits 0 f.target ||| putBits 4 f.base ||| putBits 12 f.policy = _
  simp (disch := omega) only [putBits_eq, putNum_zero, numWord_or_putNum, Nat.reducePow]

theorem SlotFields.word_entry (f : SlotFields) (e : Fin 16) :
    f.word (4 + e.val) = numWord ((tget f.entries e).channel.toNat + 256 * (tget f.entries e).extension.toNat +
      4096 * (tget f.entries e).count.toNat) := by
  have entry : f.entryAt e.val = tget f.entries e := dif_pos e.isLt
  have word : f.word (4 + e.val) = putBits 0 (f.entryAt e.val).channel ||| putBits 8 (f.entryAt e.val).extension |||
      putBits 12 (f.entryAt e.val).count := by
    unfold SlotFields.word
    rw [if_neg (by omega), if_neg (by omega), if_neg (by omega), if_neg (by omega), Nat.add_sub_cancel_left]
  rw [word, entry]
  simp (disch := omega) only [putBits_eq, putNum_zero, numWord_or_putNum, Nat.reducePow]

theorem Slot.word_field (x : Slot) {w : Nat} (h : w < 20) : x.word w = x.fields.word w := if_pos h

theorem SlotState.code_le (x : SlotState) : x.code ≤ 5 := by
  cases x <;> simp [SlotState.code]

theorem Slot.word_status (x : Slot) :
    x.word 20 = numWord (x.state.code + 16 * x.pendingTrigger.toNat + 256 * x.passedOver) := by
  have state := x.state.code_le
  have pending := x.pendingTrigger.toNat_lt
  show putNum 0 x.state.code ||| putBool 4 x.pendingTrigger ||| putNum 8 x.passedOver = _
  simp (disch := omega) only [putBool_eq, putNum_zero, numWord_or_putNum, Nat.reducePow]

/-- The words `row` read as a slot, each field at its bits (§11.4). -/
structure Slot.ReadsAs (x : Slot) (row : Nat → Word) : Prop where
  tag : row 0 = numWord (x.fields.tag.toNat + 256 * x.fields.priority.toNat)
  scan : row 1 = numWord (x.fields.scanLength.toNat + 256 * x.fields.source.toNat + 4096 * x.fields.strict.toNat +
    8192 * x.fields.share.toNat + 16384 * x.fields.raw.toNat)
  sweepCount : row 2 = x.fields.sweepCount
  delivery : row 3 = numWord (x.fields.target.toNat + 16 * x.fields.base.toNat + 4096 * x.fields.policy.toNat)
  entry : ∀ e : Fin 16, row (4 + e.val) = numWord ((tget x.fields.entries e).channel.toNat +
    256 * (tget x.fields.entries e).extension.toNat + 4096 * (tget x.fields.entries e).count.toNat)
  status : row 20 = numWord (x.state.code + 16 * x.pendingTrigger.toNat + 256 * x.passedOver)
  stamp : row 21 = x.dueStamp
  counters : ∀ w d, (w, d) ∈ [(22, x.counters.sweepsDone), (24, x.counters.entriesProduced),
    (26, x.counters.samplesDelivered), (28, x.counters.samplesLost), (30, x.counters.triggersMissed)] →
      row w = d.low ∧ row (w + 1) = d.high

theorem Slot.readsAs_of_words {x : Slot} {row : Nat → Word} (h : ∀ w, w < 32 → row w = x.word w) : x.ReadsAs row where
  tag := (h 0 (by decide)).trans x.fields.word_zero
  scan := (h 1 (by decide)).trans x.fields.word_one
  sweepCount := h 2 (by decide)
  delivery := (h 3 (by decide)).trans x.fields.word_three
  entry e := ((h (4 + e.val) (by omega)).trans (x.word_field (by omega))).trans (x.fields.word_entry e)
  status := (h 20 (by decide)).trans x.word_status
  stamp := h 21 (by decide)
  counters w d hwd := by
    simp only [List.mem_cons, Prod.mk.injEq, List.not_mem_nil, or_false] at hwd
    obtain ⟨rfl, rfl⟩ | ⟨rfl, rfl⟩ | ⟨rfl, rfl⟩ | ⟨rfl, rfl⟩ | ⟨rfl, rfl⟩ := hwd
    all_goals exact ⟨h _ (by decide), h (_ + 1) (by decide)⟩

/-! ### Records, filter elements, the result word (§11.3, §11.5-§11.7) -/

theorem SampleRecord.word_one (r : SampleRecord) :
    r.word 1 = numWord (r.channel.toNat + 32 * r.entry.toNat + 512 * r.slot.val + 16384 * portCode r.sourcePort) := by
  show putBits 0 r.channel ||| putBits 5 r.entry ||| putNum 9 r.slot.val ||| putNum 14 (portCode r.sourcePort) = _
  simp (disch := omega) only [putBits_eq, putNum_zero, numWord_or_putNum, Nat.reducePow]

theorem SampleRecord.word_two (r : SampleRecord) :
    r.word 2 = numWord (r.tag.toNat + 256 * r.overRange.toNat + 512 * r.clamp.toNat + 1024 * r.shared.toNat +
      2048 * r.urgent.toNat + 4096 * r.calSource.code) := by
  have overRange := r.overRange.toNat_lt
  have clamp := r.clamp.toNat_lt
  have shared := r.shared.toNat_lt
  have urgent := r.urgent.toNat_lt
  show putBits 0 r.tag ||| putBool 8 r.overRange ||| putBool 9 r.clamp ||| putBool 10 r.shared |||
    putBool 11 r.urgent ||| putNum 12 r.calSource.code = _
  simp (disch := omega) only [putBits_eq, putBool_eq, putNum_zero, numWord_or_putNum, Nat.reducePow]

/-- The words `row` read as a sample record, each field at its bits (§11.5). -/
structure SampleRecord.ReadsAs (r : SampleRecord) (row : Nat → Word) : Prop where
  value : row 0 = r.value
  origin : row 1 =
    numWord (r.channel.toNat + 32 * r.entry.toNat + 512 * r.slot.val + 16384 * portCode r.sourcePort)
  marks : row 2 = numWord (r.tag.toNat + 256 * r.overRange.toNat + 512 * r.clamp.toNat + 1024 * r.shared.toNat +
    2048 * r.urgent.toNat + 4096 * r.calSource.code)
  index : row 3 = r.sweepIndex
  low : row 4 = r.timestamp.low
  high : row 5 = r.timestamp.high

theorem SampleRecord.readsAs_of_words {r : SampleRecord} {row : Nat → Word} (h : ∀ w, w < 6 → row w = r.word w) :
    r.ReadsAs row where
  value := h 0 (by decide)
  origin := (h 1 (by decide)).trans r.word_one
  marks := (h 2 (by decide)).trans r.word_two
  index := h 3 (by decide)
  low := h 4 (by decide)
  high := h 5 (by decide)

theorem Position.word_record (x : Position) (w : Nat) : x.word (1 + w) = x.record.word w := by
  unfold Position.word
  rw [if_neg (by omega), Nat.add_sub_cancel_left]

theorem CompletionRecord.word_zero (r : CompletionRecord) : r.word 0 = numWord (r.slot.val + 256 * r.outcome.code) := by
  show putNum 0 r.slot.val ||| putNum 8 r.outcome.code = _
  simp (disch := omega) only [putNum_zero, numWord_or_putNum, Nat.reducePow]

/-- The words `row` read as a completion record, each item at its bits (§11.7). -/
structure CompletionRecord.ReadsAs (r : CompletionRecord) (row : Nat → Word) : Prop where
  ending : row 0 = numWord (r.slot.val + 256 * r.outcome.code)
  tag : row 1 = numWord r.tag.toNat
  counters : ∀ w d, (w, d) ∈ [(2, r.counters.sweepsDone), (4, r.counters.entriesProduced),
    (6, r.counters.samplesDelivered), (8, r.counters.samplesLost), (10, r.counters.triggersMissed),
    (12, r.endTime)] → row w = d.low ∧ row (w + 1) = d.high
  unassigned : row 14 = 0 ∧ row 15 = 0

theorem CompletionRecord.readsAs_of_words {r : CompletionRecord} {row : Nat → Word}
    (h : ∀ w, w < 16 → row w = r.word w) : r.ReadsAs row where
  ending := (h 0 (by decide)).trans r.word_zero
  tag := (h 1 (by decide)).trans ((putBits_eq 0 r.tag).trans (putNum_zero _))
  counters w d hwd := by
    simp only [List.mem_cons, Prod.mk.injEq, List.not_mem_nil, or_false] at hwd
    obtain ⟨rfl, rfl⟩ | ⟨rfl, rfl⟩ | ⟨rfl, rfl⟩ | ⟨rfl, rfl⟩ | ⟨rfl, rfl⟩ | ⟨rfl, rfl⟩ := hwd
    all_goals exact ⟨h _ (by decide), h (_ + 1) (by decide)⟩
  unassigned := ⟨h 14 (by decide), h 15 (by decide)⟩

theorem FilterElement.word_zero (f : FilterElement) :
    f.word 0 = numWord (f.action.toNat + 16 * f.slot.toNat + 256 * f.sources.toNat + 4096 * f.kind.toNat +
      32768 * f.enabled.toNat) := by
  show putBits 0 f.action ||| putBits 4 f.slot ||| putBits 8 f.sources ||| putBits 12 f.kind ||| putBool 15 f.enabled = _
  simp (disch := omega) only [putBits_eq, putBool_eq, putNum_zero, numWord_or_putNum, Nat.reducePow]

theorem FilterElement.word_one (f : FilterElement) : f.word 1 = numWord (f.first.toNat + 256 * f.second.toNat) := by
  show putBits 0 f.first ||| putBits 8 f.second = _
  simp (disch := omega) only [putBits_eq, putNum_zero, numWord_or_putNum, Nat.reducePow]

theorem PortState.controlWord_mode (p : Port) (ps : PortState) :
    ps.controlWord p 0 = numWord ((ps.mode == .opened).toNat + 256 * portCode p) := by
  have mode := (ps.mode == .opened).toNat_lt
  show putBool 0 (ps.mode == .opened) ||| putNum 8 (portCode p) = _
  simp (disch := omega) only [putBool_eq, putNum_zero, numWord_or_putNum, Nat.reducePow]

theorem PortState.commandRegion_result (ps : PortState) :
    ps.commandRegion 0x1D = numWord (ps.result.code.code.toNat + 256 * ps.result.count.toNat) := by
  show putBits 0 ps.result.code.code ||| putBits 8 ps.result.count = _
  simp (disch := omega) only [putBits_eq, putNum_zero, numWord_or_putNum, Nat.reducePow]

/-! ### Flags, enables, New Data -/

theorem getLsbD_eventWord_first (bits : BitVec 22) {k : Nat} (h : k < 16) :
    (eventWord false bits).getLsbD k = bits.getLsbD k := by
  simp [eventWord, h]

theorem getLsbD_eventWord_second (bits : BitVec 22) {k : Nat} (h : k < 6) :
    (eventWord true bits).getLsbD k = bits.getLsbD (16 + k) := by
  have inWord : k < 16 := by omega
  simp [eventWord, inWord]

theorem getLsbD_eventWord_unassigned (bits : BitVec 22) {k : Nat} (h : 6 ≤ k) :
    (eventWord true bits).getLsbD k = false := by
  have outside : 22 ≤ 16 + k := by omega
  simp [eventWord, outside]

/-- The marks of the slots `l` beside those of `v`. -/
theorem getLsbD_newData_fold (latest : Vector LatestSlot 16) (l : List (Fin 16)) (v : Word) (n : Fin 16) :
    (l.foldl (fun v n => v ||| putBool n.val (tget latest n).newData) v).getLsbD n.val =
      (v.getLsbD n.val || (decide (n ∈ l) && (tget latest n).newData)) := by
  induction l generalizing v with
  | nil => simp
  | cons m l ih =>
    rw [List.foldl_cons, ih, BitVec.getLsbD_or, getLsbD_putBool _ _ n.isLt]
    by_cases h : n = m
    · subst h
      cases (tget latest n).newData <;> simp
    · have h' : n.val ≠ m.val := fun e => h (Fin.ext e)
      simp [h, h']

/-- Bit `n` of the New Data word is the mark of slot `n` (R140). -/
theorem PortState.getLsbD_newDataWord (ps : PortState) (n : Fin 16) :
    ps.newDataWord.getLsbD n.val = (tget ps.latest n).newData := by
  unfold PortState.newDataWord
  rw [getLsbD_newData_fold]
  simp

/-- The place in a list that names codes in their order gives the code. -/
theorem code_of_getElem? {α : Type} {code : α → Nat} {l : List α} {first n k : Nat} {x : α}
    (hl : l.map code = List.range' first n) (h : l[k]? = some x) : k < n ∧ code x = first + k := by
  have hk : k < n := by
    have := (List.getElem?_eq_some_iff.mp h).1
    rwa [← List.length_map (f := code), hl, List.length_range'] at this
  have at_k := congrArg (fun m : List Nat => m[k]?) hl
  rw [List.getElem?_map, h, List.getElem?_range' hk] at at_k
  exact ⟨hk, by simpa using at_k⟩

/-! ### Reads (R137, R144, R149) -/

theorem State.readWord_of_not_captured {s : State} {p : Port} {a : BitVec 12}
    (h : (s.port p).frame = none ∨ ∃ f, (s.port p).frame = some f ∧ f.ignored = false ∧
      ∀ c ∈ f.captures, c.address ≠ a) (line : (s.port p).lineLow = false) : s.readWord p a = s.windowWord p a := by
  obtain none | ⟨f, some, taken, others⟩ := h
  · simp [State.readWord, PortState.captured, line, none]
  · have missing : (f.captures.find? fun c => c.address == a) = Option.none :=
      List.find?_eq_none.mpr fun c hc => by simpa using others c hc
    simp [State.readWord, PortState.captured, line, some, taken, missing]

/-! ### Regions of the window (§11.2) -/

section
variable (s : State) (p : Port)

theorem toNat_address {n : Nat} (h : n < 4096) : (BitVec.ofNat 12 n).toNat = n := by
  rw [BitVec.toNat_ofNat]
  omega

theorem State.windowWord_slot {k w : Nat} {i : SlotId} (hk : k < 8) (hw : w < 32) (hi : i.val = 8 * portCode p + k) :
    s.windowWord p (BitVec.ofNat 12 (0x100 + 32 * k + w)) = (s.slot i).word w := by
  have place : (0x100 + 32 * k + w - 0x100) / 32 = k := by omega
  have word : (0x100 + 32 * k + w) % 32 = w := by omega
  unfold State.windowWord
  rw [toNat_address (by omega)]
  dsimp only
  iterate 6 rw [if_neg (by omega)]
  rw [if_pos (by omega), place, word]
  have lt := i.isLt
  have index : (⟨8 * portCode p + k, hi ▸ lt⟩ : SlotId) = i := Fin.ext hi.symm
  exact (dif_pos (hi ▸ lt)).trans (congrArg (fun j => (s.slot j).word w) index)

theorem State.windowWord_filter (k : Fin 16) {w : Nat} (hw : w < 2) :
    s.windowWord p (BitVec.ofNat 12 (0x200 + 2 * k.val + w)) = (tget (s.port p).filters k).word w := by
  have place : (0x200 + 2 * k.val + w - 0x200) / 2 = k.val := by omega
  have word : (0x200 + 2 * k.val + w) % 2 = w := by omega
  unfold State.windowWord
  rw [toNat_address (by omega)]
  dsimp only
  iterate 7 rw [if_neg (by omega)]
  rw [if_pos (by omega), place, word]
  exact dif_pos k.isLt

theorem State.windowWord_latest (n : Fin 16) {w : Nat} (hw : w < 8) :
    s.windowWord p (BitVec.ofNat 12 (0x240 + 8 * n.val + w)) = (tget (s.port p).latest n).record.word w := by
  have place : (0x240 + 8 * n.val + w - 0x240) / 8 = n.val := by omega
  have word : (0x240 + 8 * n.val + w) % 8 = w := by omega
  unfold State.windowWord
  rw [toNat_address (by omega)]
  dsimp only
  iterate 9 rw [if_neg (by omega)]
  rw [if_pos (by omega), place, word]
  exact dif_pos n.isLt

/-- The address of the first position of a queue (§11.2). -/
def queueAddress : QueueId → Nat
  | .q0 => 0x400
  | .q1 => 0x600

theorem State.windowWord_position (q : QueueId) (i : Fin 64) {w : Nat} (hw : w < 8) :
    s.windowWord p (BitVec.ofNat 12 (queueAddress q + 8 * i.val + w)) =
      if i.val < (s.port p).queueSize q then (tget ((s.port p).ring q).positions i).word w else 0 := by
  have region : s.windowWord p (BitVec.ofNat 12 (queueAddress q + 8 * i.val + w)) =
      (s.port p).positionWord q i.val w := by
    unfold State.windowWord
    cases q
    · have place : (0x400 + 8 * i.val + w - 0x400) / 8 = i.val := by omega
      have word : (0x400 + 8 * i.val + w) % 8 = w := by omega
      unfold queueAddress
      dsimp only
      rw [toNat_address (by omega)]
      iterate 13 rw [if_neg (by omega)]
      rw [if_pos (by omega), place, word]
    · have place : (0x600 + 8 * i.val + w - 0x600) / 8 = i.val := by omega
      have word : (0x600 + 8 * i.val + w) % 8 = w := by omega
      unfold queueAddress
      dsimp only
      rw [toNat_address (by omega)]
      iterate 14 rw [if_neg (by omega)]
      rw [if_pos (by omega), place, word]
  rw [region]
  exact dif_pos i.isLt

/-- The address of the first state word of a queue (§11.2). -/
def ringAddress : QueueId → Nat
  | .q0 => 0x300
  | .q1 => 0x308

theorem State.windowWord_ring (q : QueueId) {k : Nat} (hk : k < 6) :
    s.windowWord p (BitVec.ofNat 12 (ringAddress q + k)) = ((s.port p).ring q).stateWord k := by
  unfold State.windowWord
  cases q
  · have word : 0x300 + k - 0x300 = k := by omega
    unfold ringAddress
    dsimp only
    rw [toNat_address (by omega)]
    iterate 11 rw [if_neg (by omega)]
    rw [if_pos (by omega), word]
    rfl
  · have word : 0x308 + k - 0x308 = k := by omega
    unfold ringAddress
    dsimp only
    rw [toNat_address (by omega)]
    iterate 12 rw [if_neg (by omega)]
    rw [if_pos (by omega), word]
    rfl

theorem State.windowWord_completion (k : Fin 16) {w : Nat} (hw : w < 16) :
    s.windowWord p (BitVec.ofNat 12 (0x810 + 16 * k.val + w)) = (s.port p).completionWord k.val w := by
  have place : (0x810 + 16 * k.val + w - 0x810) / 16 = k.val := by omega
  have word : (0x810 + 16 * k.val + w) % 16 = w := by omega
  unfold State.windowWord
  rw [toNat_address (by omega)]
  dsimp only
  iterate 16 rw [if_neg (by omega)]
  rw [if_pos (by omega), place, word]

end

theorem PortState.completionWord_some {ps : PortState} {k : Nat} {r : CompletionRecord}
    (h : ps.completions[k]? = some r) (w : Nat) : ps.completionWord k w = r.word w := by
  unfold PortState.completionWord
  rw [h]

/-- Completion positions from the count on read as 0 (R22). -/
theorem PortState.completionWord_none {ps : PortState} {k : Nat} (h : ps.completions[k]? = none) (w : Nat) :
    ps.completionWord k w = 0 := by
  unfold PortState.completionWord
  rw [h]

theorem State.latestSlot_reads (s : State) (p : Port) (n : Fin 16) :
    (tget (s.port p).latest n).record.ReadsAs (fun w => s.windowWord p (BitVec.ofNat 12 (0x240 + 8 * n.val + w))) ∧
      s.windowWord p (BitVec.ofNat 12 (0x246 + 8 * n.val)) = 0 ∧
      s.windowWord p (BitVec.ofNat 12 (0x247 + 8 * n.val)) = 0 := by
  have sixth : 0x246 + 8 * n.val = 0x240 + 8 * n.val + 6 := by omega
  have seventh : 0x247 + 8 * n.val = 0x240 + 8 * n.val + 7 := by omega
  rw [sixth, seventh]
  exact ⟨SampleRecord.readsAs_of_words fun w hw => s.windowWord_latest p n (by omega),
    s.windowWord_latest p n (by decide), s.windowWord_latest p n (by decide)⟩

/-- A position below the size reads as its element number and its record, one from the size on as 0 (R137). -/
theorem State.position_reads (s : State) (p : Port) (q : QueueId) (i : Fin 64) :
    (i.val < (s.port p).queueSize q →
      s.windowWord p (BitVec.ofNat 12 (queueAddress q + 8 * i.val + 0)) =
          (tget ((s.port p).ring q).positions i).number ∧
        (tget ((s.port p).ring q).positions i).record.ReadsAs
          (fun w => s.windowWord p (BitVec.ofNat 12 (queueAddress q + 8 * i.val + (1 + w)))) ∧
        s.windowWord p (BitVec.ofNat 12 (queueAddress q + 8 * i.val + 7)) = 0) ∧
      ((s.port p).queueSize q ≤ i.val →
        ∀ w, w < 8 → s.windowWord p (BitVec.ofNat 12 (queueAddress q + 8 * i.val + w)) = 0) := by
  have row := fun {w : Nat} => s.windowWord_position p q i (w := w)
  refine ⟨fun inside => ⟨(row (by decide)).trans (if_pos inside), SampleRecord.readsAs_of_words fun w hw => ?_,
    (row (by decide)).trans (if_pos inside)⟩, fun beyond w hw => (row hw).trans (if_neg (Nat.not_lt.mpr beyond))⟩
  exact ((row (by omega)).trans (if_pos inside)).trans (Position.word_record _ w)

/-- A completion record reads at its position; positions from the count on read as 0 (R22). -/
theorem State.completion_reads (s : State) (p : Port) (k : Fin 16) :
    ((s.port p).completions.length ≤ k.val →
        ∀ w, w < 16 → s.windowWord p (BitVec.ofNat 12 (0x810 + 16 * k.val + w)) = 0) ∧
      ∀ r, (s.port p).completions[k.val]? = some r →
        r.ReadsAs fun w => s.windowWord p (BitVec.ofNat 12 (0x810 + 16 * k.val + w)) :=
  ⟨fun beyond w hw => (s.windowWord_completion p k hw).trans
      (PortState.completionWord_none (List.getElem?_eq_none beyond) w),
    fun _ hr => CompletionRecord.readsAs_of_words fun w hw =>
      (s.windowWord_completion p k hw).trans (PortState.completionWord_some hr w)⟩

theorem PortState.getLsbD_watchedWord_first (ps : PortState) {n : Nat} (h : n < 16) :
    (ps.watched.setWidth 16).getLsbD n = ps.watched.getLsbD n := by
  simp [h]

theorem PortState.getLsbD_watchedWord_second (ps : PortState) {n : Nat} (h : n < 16) :
    ((ps.watched >>> 16).setWidth 16).getLsbD n = ps.watched.getLsbD (16 + n) := by
  simp [h]

/-- Unassigned addresses read 0 (R144). -/
theorem State.windowWord_unassigned {a : BitVec 12} (h : ∀ first last, (first, last) ∈ [(0x000, 0x00A), (0x010, 0x013),
      (0x018, 0x01E), (0x100, 0x1FF), (0x200, 0x220), (0x240, 0x2C0), (0x300, 0x305), (0x308, 0x30D), (0x400, 0x7FF),
      (0x800, 0x800), (0x810, 0x90F), (0x980, 0x981), (0xA00, 0xA33), (0xB00, 0xBFF)] →
    ¬(first ≤ a.toNat ∧ a.toNat ≤ last)) (s : State) (p : Port) : s.windowWord p a = 0 := by
  unfold State.windowWord
  dsimp only
  rw [if_neg fun c => h 0x000 0x00A (by simp) (by omega),
    if_neg fun c => h 0x010 0x013 (by simp) (by omega),
    if_neg fun c => h 0x010 0x013 (by simp) (by omega),
    if_neg fun c => h 0x010 0x013 (by simp) (by omega),
    if_neg fun c => h 0x010 0x013 (by simp) (by omega),
    if_neg fun c => h 0x018 0x01E (by simp) (by omega),
    if_neg fun c => h 0x100 0x1FF (by simp) (by omega),
    if_neg fun c => h 0x200 0x220 (by simp) (by omega),
    if_neg fun c => h 0x200 0x220 (by simp) (by omega),
    if_neg fun c => h 0x240 0x2C0 (by simp) (by omega),
    if_neg fun c => h 0x240 0x2C0 (by simp) (by omega),
    if_neg fun c => h 0x300 0x305 (by simp) (by omega),
    if_neg fun c => h 0x308 0x30D (by simp) (by omega),
    if_neg fun c => h 0x400 0x7FF (by simp) (by omega),
    if_neg fun c => h 0x400 0x7FF (by simp) (by omega),
    if_neg fun c => h 0x800 0x800 (by simp) (by omega),
    if_neg fun c => h 0x810 0x90F (by simp) (by omega),
    if_neg fun c => h 0x980 0x981 (by simp) (by omega),
    if_neg fun c => h 0x980 0x981 (by simp) (by omega),
    if_neg fun c => h 0xA00 0xA33 (by simp) (by omega),
    if_neg fun c => h 0xB00 0xBFF (by simp) (by omega)]

/-- The events of flag and enable word 0, in the order of their bits (§11.8). -/
theorem bit_firstEvents {k : Nat} {e : Event} (h : [Event.q0Watermark, .q0Full, .q0Lost, .q1Watermark, .q1Full, .q1Lost,
    .queueTimeout, .slotNew, .urgent, .watched, .completion, .completionLost, .stalled, .triggerMissed, .converterFault,
    .converterReady][k]? = some e) : k < 16 ∧ e.bit = k := by
  have place := code_of_getElem? (code := Event.bit) (first := 0) (n := 16) (by decide) h
  rwa [Nat.zero_add] at place

/-- The events of flag and enable word 1 (§11.8). -/
theorem bit_secondEvents {k : Nat} {e : Event} (h : [Event.leaseLost, .storeDone, .storeFailed, .loadDone, .timeWrap,
    .writeDiscarded][k]? = some e) : k < 6 ∧ e.bit = 16 + k :=
  code_of_getElem? (code := Event.bit) (by decide) h

/-- The result codes below 20, in their order (R145). -/
theorem code_resultCodes {k : Nat} {r : ResultCode} (h : [ResultCode.ok, .accepted, .closed, .notIdle, .notActive,
    .badField, .badTarget, .badPolicy, .noRoom, .inUse, .notOwner, .busy, .locked, .noLease, .leaseHeld, .staleIndex,
    .badIndex, .empty, .already, .badTrigger][k]? = some r) : r.code.toNat = k := by
  have place := code_of_getElem? (code := fun r => r.code.toNat) (first := 0) (n := 20) (by decide) h
  rw [Nat.zero_add] at place
  exact place.2

/-- Settles O13: region by region, the words as the lemmas above give them. -/
theorem windowWords : Obligations.WindowWords := by
  intro p s ps word num bit low high code
  have hbit : ∀ b, bit b = b.toNat := fun b => by cases b <;> rfl
  have hcode : ∀ q, code q = portCode q := fun q => by cases q <;> rfl
  refine ⟨fun a => State.readWord_of_not_captured, ⟨?_, rfl, rfl, rfl, rfl, rfl, rfl, rfl, rfl, rfl, ?_⟩,
    fun k e h => ?_, fun k e h => ?_, fun k h => ⟨getLsbD_eventWord_unassigned _ h, getLsbD_eventWord_unassigned _ h⟩,
    ⟨rfl, rfl, rfl, rfl, ?_⟩, fun k r h result => ?_, fun result => ?_, fun k i hk hi => ?_, fun k => ?_, ?_, ?_, rfl,
    fun k => ?_, fun n hn => ?_, fun a h => State.windowWord_unassigned h s p⟩
  · rw [hbit, hcode]
    exact PortState.controlWord_mode p ps
  · refine (putNum_zero _).trans ?_
    cases ps.timeout.state <;> rfl
  · obtain ⟨hk, place⟩ := bit_firstEvents h
    unfold PortState.flag PortState.enabled
    rw [place]
    exact ⟨getLsbD_eventWord_first _ hk, getLsbD_eventWord_first _ hk⟩
  · obtain ⟨hk, place⟩ := bit_secondEvents h
    unfold PortState.flag PortState.enabled
    rw [place]
    exact ⟨getLsbD_eventWord_second _ hk, getLsbD_eventWord_second _ hk⟩
  · exact (putBits_eq 0 ps.result.command).trans (putNum_zero _)
  · rw [← code_resultCodes h, ← result]
    exact ps.commandRegion_result
  · have value := ps.commandRegion_result
    rw [result] at value
    exact value
  · rw [hcode] at hi
    have row := Slot.readsAs_of_words fun w hw => State.windowWord_slot s p hk (w := w) hw hi
    simp only [hbit]
    refine ⟨row.tag, row.scan, row.sweepCount, row.delivery, row.entry, row.status.trans ?_, row.stamp, row.counters⟩
    cases (s.slot i).state <;> rfl
  · have second : 0x201 + 2 * k.val = 0x200 + 2 * k.val + 1 := by omega
    rw [second]
    simp only [hbit]
    exact ⟨(State.windowWord_filter s p k (w := 0) (by decide)).trans (FilterElement.word_zero _),
      (State.windowWord_filter s p k (w := 1) (by decide)).trans (FilterElement.word_one _)⟩
  · exact (putBits_eq 0 ps.unmatched).trans (putNum_zero _)
  · intro sample
    have reads : ∀ {r : SampleRecord} {row : Nat → Word}, r.ReadsAs row → sample r row := fun {r row} h => by
      simp only [sample, hbit, hcode]
      refine ⟨h.value, h.origin, h.marks.trans ?_, h.index, h.low, h.high⟩
      cases r.calSource <;> rfl
    have state : ∀ q k, k < 6 → word (ringAddress q + k) = (ps.ring q).stateWord k :=
      fun q k hk => State.windowWord_ring s p q hk
    have positions : ∀ q (i : Fin 64),
        (i.val < (ps.queueConfig q).size.toNat →
          word (queueAddress q + 8 * i.val + 0) = (tget (ps.ring q).positions i).number ∧
          sample (tget (ps.ring q).positions i).record (fun w => word (queueAddress q + 8 * i.val + (1 + w))) ∧
          word (queueAddress q + 8 * i.val + 7) = 0) ∧
        ((ps.queueConfig q).size.toNat ≤ i.val → ∀ w, w < 8 → word (queueAddress q + 8 * i.val + w) = 0) := fun q i =>
      ⟨fun inside => ((s.position_reads p q i).1 inside).imp_right (And.imp_left reads), (s.position_reads p q i).2⟩
    refine ⟨fun n => ?_, fun q first last h => ?_⟩
    · obtain ⟨record, sixth, seventh⟩ := s.latestSlot_reads p n
      exact ⟨reads record, sixth, seventh, ps.getLsbD_newDataWord n⟩
    · simp only [List.mem_cons, Prod.mk.injEq, List.not_mem_nil, or_false] at h
      obtain ⟨rfl, rfl, rfl⟩ | ⟨rfl, rfl, rfl⟩ := h
      · exact ⟨⟨state .q0 0 (by decide), state .q0 1 (by decide), state .q0 2 (by decide), state .q0 3 (by decide),
          state .q0 4 (by decide), state .q0 5 (by decide)⟩, positions .q0⟩
      · exact ⟨⟨state .q1 0 (by decide), state .q1 1 (by decide), state .q1 2 (by decide), state .q1 3 (by decide),
          state .q1 4 (by decide), state .q1 5 (by decide)⟩, positions .q1⟩
  · obtain ⟨beyond, record⟩ := s.completion_reads p k
    refine ⟨beyond, fun r hr => ⟨(record r hr).ending.trans ?_, (record r hr).tag, (record r hr).counters,
      (record r hr).unassigned⟩⟩
    cases r.outcome <;> rfl
  · exact ⟨ps.getLsbD_watchedWord_first hn, ps.getLsbD_watchedWord_second hn⟩

end Sys2Proof.Machine
end

section
/-! SUPPORT. GRANT's choice: the order of R47, the candidate, and which requests the room check stalls before the winner
(R44, R47-R49). -/
namespace Sys2Proof.Machine

/-! ### The order of the keys (R47) -/

theorem SelectionKey.before_iff (a b : SelectionKey) :
    a.before b = true ↔ a.priority < b.priority ∨ a.priority = b.priority ∧
      (a.stamp < b.stamp ∨ a.stamp = b.stamp ∧
        (a.rotation < b.rotation ∨ a.rotation = b.rotation ∧ a.slot < b.slot)) := by
  simp only [SelectionKey.before, Bool.or_eq_true, Bool.and_eq_true, decide_eq_true_eq, beq_iff_eq]

theorem SelectionKey.before_trans {a b c : SelectionKey} (hab : a.before b = true) (hbc : b.before c = true) :
    a.before c = true := by
  rw [SelectionKey.before_iff] at *
  omega

theorem SelectionKey.not_before_of_before {a b : SelectionKey} (h : a.before b = true) : ¬b.before a = true := by
  rw [SelectionKey.before_iff] at *
  omega

theorem SelectionKey.before_or_before {a b : SelectionKey} (h : a.slot ≠ b.slot) :
    a.before b = true ∨ b.before a = true := by
  rw [SelectionKey.before_iff, SelectionKey.before_iff]
  omega

/-- The order of the model's keys is the manual's (R47, R48). -/
theorem State.preferred_iff (s : State) (i j : SlotId) :
    s.Preferred i j ↔ (s.selectionKey i).before (s.selectionKey j) = true :=
  (SelectionKey.before_iff (s.selectionKey i) (s.selectionKey j)).symm

theorem State.Preferred.trans {s : State} {i j k : SlotId} (hij : s.Preferred i j) (hjk : s.Preferred j k) :
    s.Preferred i k := by
  rw [State.preferred_iff] at *
  exact SelectionKey.before_trans hij hjk

theorem State.Preferred.asymm {s : State} {i j : SlotId} (h : s.Preferred i j) : ¬s.Preferred j i := by
  rw [State.preferred_iff] at *
  exact SelectionKey.not_before_of_before h

theorem State.Preferred.irrefl (s : State) (i : SlotId) : ¬s.Preferred i i := fun h => h.asymm h

theorem State.preferred_or {i j : SlotId} (s : State) (h : i ≠ j) : s.Preferred i j ∨ s.Preferred j i := by
  rw [State.preferred_iff, State.preferred_iff]
  exact SelectionKey.before_or_before fun e => h (Fin.ext e)

/-- The order is told by the slots' fields, passed-over counts and stamps, and by the arbiter. -/
theorem State.preferred_congr {s t : State} (arbiter : t.arbiter = s.arbiter)
    (fields : ∀ i, (t.slot i).fields = (s.slot i).fields) (passed : ∀ i, (t.slot i).passedOver = (s.slot i).passedOver)
    (stamp : ∀ i, (t.slot i).dueStamp = (s.slot i).dueStamp) (i j : SlotId) : t.Preferred i j ↔ s.Preferred i j := by
  simp only [State.Preferred, arbiter, fields, passed, stamp]

/-! ### Updates of many slots -/

/-- Distinct slots, each updated once, and nothing else changed. -/
theorem State.updSlots_eq (F : SlotId → Slot → Slot) {l : List SlotId} (distinct : l.Nodup) (s : State) :
    ∃ v, l.foldl (fun s i => s.updSlot i (F i)) s = { s with slots := v } ∧
      ∀ j, tget v j = if j ∈ l then F j (s.slot j) else s.slot j := by
  induction l generalizing s with
  | nil => exact ⟨s.slots, rfl, fun j => (if_neg List.not_mem_nil).symm⟩
  | cons i l ih =>
    obtain ⟨new, rest⟩ := List.nodup_cons.mp distinct
    obtain ⟨v, e, slots⟩ := ih rest (s.updSlot i (F i))
    refine ⟨v, e, fun j => ?_⟩
    rw [slots j, State.slot_updSlot]
    by_cases h : j = i
    · subst h
      simp [new]
    · simp [h]

/-- Distinct members of a list are at most as many as it is long. -/
theorem length_le_of_nodup {α : Type} [DecidableEq α] {l m : List α} (distinct : l.Nodup) (inside : ∀ x, x ∈ l → x ∈ m) :
    l.length ≤ m.length := by
  induction l generalizing m with
  | nil => exact Nat.zero_le _
  | cons x l ih =>
    obtain ⟨new, rest⟩ := List.nodup_cons.mp distinct
    have member := inside x List.mem_cons_self
    have others : ∀ y, y ∈ l → y ∈ m.erase x := fun y hy =>
      (List.mem_erase_of_ne fun e : y = x => new (e ▸ hy)).mpr (inside y (List.mem_cons_of_mem x hy))
    have shorter := ih rest others
    rw [List.length_erase_of_mem member] at shorter
    have nonempty := List.length_pos_of_mem member
    rw [List.length_cons]
    omega

/-! ### The candidate (R47) -/

theorem State.mem_dueList (s : State) (i : SlotId) : i ∈ s.dueList ↔ (s.slot i).state = .due := by
  simp [State.dueList, mem_allSlots]

theorem nodup_allSlots : allSlots.Nodup := by decide

theorem State.nodup_dueList (s : State) : s.dueList.Nodup := List.Pairwise.filter _ nodup_allSlots

theorem State.length_dueList (s : State) : s.dueList.length ≤ 24 := List.length_filter_le _ allSlots

/-- The preferred one of two members is one of them, and no other is preferred to it. -/
theorem State.preferred_eq (s : State) (i j : SlotId) :
    (s.preferred i j = i ∨ s.preferred i j = j) ∧ ¬s.Preferred i (s.preferred i j) ∧
      ¬s.Preferred j (s.preferred i j) := by
  unfold State.preferred
  split
  · next h =>
    have h := (s.preferred_iff j i).mpr h
    exact ⟨.inr rfl, h.asymm, State.Preferred.irrefl s j⟩
  · next h => exact ⟨.inl rfl, State.Preferred.irrefl s i, fun h' => h ((s.preferred_iff j i).mp h')⟩

/-- The choice among the members of a list finds one to which none is preferred. -/
theorem State.foldl_preferred (s : State) (l : List SlotId) (i : SlotId) :
    l.foldl s.preferred i ∈ i :: l ∧ ∀ j ∈ i :: l, ¬s.Preferred j (l.foldl s.preferred i) := by
  induction l generalizing i with
  | nil => exact ⟨List.mem_cons_self, fun j hj => List.mem_singleton.mp hj ▸ State.Preferred.irrefl s i⟩
  | cons k l ih =>
    obtain ⟨member, best⟩ := ih (s.preferred i k)
    obtain ⟨among, bestI, bestK⟩ := s.preferred_eq i k
    rw [List.foldl_cons]
    have notFirst := best _ List.mem_cons_self
    -- what is not preferred to the preferred of the two is not preferred to the choice
    have chain : ∀ j, ¬s.Preferred j (s.preferred i k) → ¬s.Preferred j (l.foldl s.preferred (s.preferred i k)) := by
      intro j hj hbest
      by_cases e : j = s.preferred i k
      · exact notFirst (e ▸ hbest)
      · exact notFirst (((s.preferred_or e).resolve_left hj).trans hbest)
    refine ⟨?_, fun j hj => ?_⟩
    · obtain e | rest := List.mem_cons.mp member
      · rw [e]
        obtain e | e := among <;> simp [e]
      · simp [rest]
    · obtain rfl | rest := List.mem_cons.mp hj
      · exact chain _ bestI
      · obtain rfl | rest := List.mem_cons.mp rest
        · exact chain _ bestK
        · exact best j (List.mem_cons_of_mem _ rest)

/-- The candidate is a member of the due list to which every other member is inferior (R47). -/
theorem State.candidate_some {s : State} {i : SlotId} (h : s.candidate = some i) :
    (s.slot i).state = .due ∧ ∀ j, (s.slot j).state = .due → ¬s.Preferred j i := by
  simp only [← s.mem_dueList]
  unfold State.candidate at h
  split at h
  · cases h
  · next first rest e =>
    rw [e, ← Option.some.inj h]
    exact s.foldl_preferred rest first

theorem State.candidate_none {s : State} (h : s.candidate = none) (j : SlotId) : (s.slot j).state ≠ .due := by
  unfold State.candidate at h
  split at h
  · next e => simp [← s.mem_dueList, e]
  · cases h

/-! ### The room check (R49) -/

/-- The model's room check is the manual's. -/
theorem State.passesRoomCheck_iff (s : State) (i : SlotId) : s.passesRoomCheck i = true ↔ s.RoomFor i := by
  unfold State.passesRoomCheck State.RoomFor
  dsimp only
  by_cases stall : (s.slot i).fields.policy.toNat = 1
  · rw [if_pos ((s.slot i).fields.policyOf_stall.mpr stall)]
    split
    · next q e =>
      have code := ((s.slot i).fields.targetOf_queue q).mp e
      cases q <;> simp [stall, code]
    · next other =>
      have h0 := fun h => other .q0 (((s.slot i).fields.targetOf_queue .q0).mpr h)
      have h1 := fun h => other .q1 (((s.slot i).fields.targetOf_queue .q1).mpr h)
      exact iff_of_true rfl fun _ => ⟨fun h => absurd h h0, fun h => absurd h h1⟩
  · rw [if_neg fun h => stall ((s.slot i).fields.policyOf_stall.mp h)]
    exact iff_of_true rfl fun h => absurd h stall

/-! ### The failed candidates (R12, R49) -/

/-- `t` is `s` with the requests of the slots `failed` STALLED and STALLED raised at their ports. -/
structure State.Stalled (failed : SlotId → Prop) (s t : State) : Prop where
  slot : ∀ j, (failed j → t.slot j = { s.slot j with state := .stalled }) ∧ (¬failed j → t.slot j = s.slot j)
  port : ∀ p, t.port p = { s.port p with flags := (t.port p).flags }
  flag : ∀ p e, (t.port p).flag e = true ↔
    (s.port p).flag e = true ∨ e = .stalled ∧ ∃ j, failed j ∧ slotOwner j = p
  rest : t = { s with ports := t.ports, slots := t.slots }

namespace State.Stalled
variable {failed : SlotId → Prop} {s t : State}

theorem refl (s : State) (nobody : ∀ j, ¬failed j) : s.Stalled failed s where
  slot j := ⟨fun h => absurd h (nobody j), fun _ => rfl⟩
  port _ := rfl
  flag _ _ := ⟨.inl, fun h => h.resolve_right fun ⟨_, j, hj, _⟩ => nobody j hj⟩
  rest := rfl

theorem arbiter (h : s.Stalled failed t) : t.arbiter = s.arbiter := by
  rw [h.rest]

theorem seq (h : s.Stalled failed t) : t.seq = s.seq := by
  rw [h.rest]

/-- A slot keeps all but its state. -/
theorem slot_eq (h : s.Stalled failed t) (j : SlotId) : t.slot j = { s.slot j with state := (t.slot j).state } := by
  by_cases hj : failed j
  · rw [(h.slot j).1 hj]
  · rw [(h.slot j).2 hj]

theorem preferred_iff (h : s.Stalled failed t) (i j : SlotId) : t.Preferred i j ↔ s.Preferred i j :=
  State.preferred_congr h.arbiter (fun i => by rw [h.slot_eq i]) (fun i => by rw [h.slot_eq i])
    (fun i => by rw [h.slot_eq i]) i j

/-- A failed room check leaves the room of every queue. -/
theorem roomFor_iff (h : s.Stalled failed t) (i : SlotId) : t.RoomFor i ↔ s.RoomFor i := by
  have fields : (t.slot i).fields = (s.slot i).fields := by rw [h.slot_eq i]
  have room : ∀ q, (t.port (slotOwner i)).room q = (s.port (slotOwner i)).room q := fun q => by
    rw [h.port (slotOwner i)]
    rfl
  simp only [State.RoomFor, fields, room]

/-- The requests that are still DUE. -/
theorem due_iff (h : s.Stalled failed t) (j : SlotId) :
    (t.slot j).state = .due ↔ (s.slot j).state = .due ∧ ¬failed j := by
  by_cases hj : failed j
  · simp [(h.slot j).1 hj, hj]
  · simp [(h.slot j).2 hj, hj]

theorem trans {u : State} {later both : SlotId → Prop} (h : s.Stalled failed t) (k : t.Stalled later u)
    (hboth : ∀ j, both j ↔ failed j ∨ later j) : s.Stalled both u where
  slot j := by
    rw [hboth]
    by_cases hl : later j
    · refine ⟨fun _ => ?_, fun neither => absurd (.inr hl) neither⟩
      rw [(k.slot j).1 hl, h.slot_eq j]
    · rw [(k.slot j).2 hl]
      exact ⟨fun either => (h.slot j).1 (either.resolve_right hl), fun neither => (h.slot j).2 fun hf => neither (.inl hf)⟩
  port p := by
    rw [k.port p, h.port p]
  flag p e := by
    rw [k.flag, h.flag, or_assoc, ← and_or_left, ← exists_or]
    simp only [hboth, or_and_right]
  rest := by
    rw [k.rest, h.rest]

end State.Stalled

theorem Event.bit_stalled (e : Event) : e.bit = 12 ↔ e = .stalled := by
  cases e <;> simp [Event.bit]

/-- STALLED is raised, and no other flag changes (R151). -/
theorem PortState.flag_raise_stalled (ps : PortState) (e : Event) :
    (ps.raise .stalled).flag e = true ↔ ps.flag e = true ∨ e = .stalled := by
  have inFlags : e.bit < 22 := by cases e <;> decide
  rw [← e.bit_stalled]
  simp only [PortState.flag, PortState.raise, BitVec.getLsbD_or, BitVec.getLsbD_twoPow, Bool.or_eq_true,
    Bool.and_eq_true, decide_eq_true_eq]
  exact or_congr_right ⟨fun h => h.2.symm, fun h => ⟨by decide, h.symm⟩⟩

/-- One failed room check (R12). -/
theorem State.stalled_stall (s : State) (i : SlotId) : s.Stalled (· = i) (s.stall i) where
  slot j := ⟨fun h => h ▸ State.slot_updSlot_self s i _, fun h => State.slot_updSlot_ne s _ h⟩
  port p := by
    rw [State.stall, State.port_raise]
    split <;> rfl
  flag p e := by
    rw [State.stall, State.port_raise]
    simp only [exists_eq_left]
    split
    · next owner =>
      rw [PortState.flag_raise_stalled]
      simp [owner]
    · next other => simp [Ne.symm other]
  rest := rfl

/-- What the choice made again after each failed room check comes to: with a winner, the requests preferred to it have
failed; without one, all have (R49). -/
def State.ChoiceMade (s t : State) : Option SlotId → Prop
  | some i => (s.slot i).state = .due ∧ s.RoomFor i ∧ (∀ j, (s.slot j).state = .due → s.Preferred j i → ¬s.RoomFor j) ∧
      s.Stalled (fun j => (s.slot j).state = .due ∧ s.Preferred j i) t
  | none => (∀ j, (s.slot j).state = .due → ¬s.RoomFor j) ∧ s.Stalled (fun j => (s.slot j).state = .due) t

/-- A failed candidate leaves the due list. -/
theorem State.length_dueList_stall {s : State} {i : SlotId} (due : (s.slot i).state = .due) :
    (s.stall i).dueList.length < s.dueList.length := by
  refine length_le_of_nodup (l := i :: (s.stall i).dueList) ?_ ?_
  · refine List.nodup_cons.mpr ⟨fun h => ?_, State.nodup_dueList _⟩
    rw [State.mem_dueList, (s.stalled_stall i).due_iff] at h
    exact h.2 rfl
  · intro j hj
    rw [State.mem_dueList]
    obtain rfl | hj := List.mem_cons.mp hj
    · exact due
    · rw [State.mem_dueList, (s.stalled_stall i).due_iff] at hj
      exact hj.1

/-- The choice made again after the candidate of slot `i` has failed is the whole choice. -/
theorem State.ChoiceMade.of_stall {s t : State} {i : SlotId} {winner : Option SlotId} (due : (s.slot i).state = .due)
    (best : ∀ j, (s.slot j).state = .due → ¬s.Preferred j i) (fails : ¬s.RoomFor i)
    (made : (s.stall i).ChoiceMade t winner) : s.ChoiceMade t winner := by
  have one := s.stalled_stall i
  cases winner with
  | none =>
    obtain ⟨failed, stalled⟩ := made
    simp only [one.due_iff, one.roomFor_iff] at failed stalled
    refine ⟨fun j hj => ?_, one.trans stalled fun j => ?_⟩
    all_goals by_cases e : j = i
    · exact e ▸ fails
    · exact failed j ⟨hj, e⟩
    · simp [e, due]
    · simp [e]
  | some w =>
    obtain ⟨⟨dueW, other⟩, roomW, failed, stalled⟩ := made.imp_left (one.due_iff w).mp
    simp only [one.due_iff, one.roomFor_iff, one.preferred_iff] at roomW failed stalled
    have first : s.Preferred i w := (s.preferred_or (Ne.symm other)).resolve_right (best w dueW)
    refine ⟨dueW, roomW, fun j hj before => ?_, one.trans stalled fun j => ?_⟩
    all_goals by_cases e : j = i
    · exact e ▸ fails
    · exact failed j ⟨hj, e⟩ before
    · simp [e, due, first]
    · simp [e]

/-- As many choices as there are DUE requests are enough. -/
theorem State.chooseWinner_spec (n : Nat) (s : State) (enough : s.dueList.length ≤ n) :
    s.ChoiceMade (s.chooseWinner n).1 (s.chooseWinner n).2 := by
  induction n generalizing s with
  | zero =>
    have nobody : ∀ j, (s.slot j).state ≠ .due := fun j => by
      rw [Ne, ← s.mem_dueList, List.eq_nil_of_length_eq_zero (Nat.le_zero.mp enough)]
      exact List.not_mem_nil
    exact ⟨fun j hj => absurd hj (nobody j), .refl s nobody⟩
  | succ n ih =>
    unfold State.chooseWinner
    split
    · next candidate =>
      have nobody := State.candidate_none candidate
      exact ⟨fun j hj => absurd hj (nobody j), .refl s nobody⟩
    · next i candidate =>
      obtain ⟨due, best⟩ := State.candidate_some candidate
      split
      · next passes =>
        exact ⟨due, (s.passesRoomCheck_iff i).mp passes, fun j hj before => absurd before (best j hj),
          .refl s fun j hj => best j hj.1 hj.2⟩
      · next fails =>
        have fewer := Nat.le_of_lt_succ (Nat.lt_of_lt_of_le (State.length_dueList_stall due) enough)
        exact .of_stall due best (fun room => fails ((s.passesRoomCheck_iff i).mpr room)) (ih (s.stall i) fewer)

/-! ### The winner (R48, R50, R60) -/

/-- The requests preferred to the winner are STALLED when it is granted. -/
theorem State.ChoiceMade.stalled {s t : State} {i : SlotId} (h : s.ChoiceMade t (some i)) :
    s.Stalled (fun j => (s.slot j).state = .due ∧ s.Preferred j i) t := by
  obtain ⟨-, -, -, stalled⟩ := h
  exact stalled

/-- The winner is still DUE when it is granted. -/
theorem State.ChoiceMade.due {s t : State} {i : SlotId} (h : s.ChoiceMade t (some i)) : (t.slot i).state = .due := by
  obtain ⟨due, -, -, stalled⟩ := h
  exact (stalled.due_iff i).mpr ⟨due, fun failed => State.Preferred.irrefl s i failed.2⟩

/-- A posting that reserves places in the queue of target code `code` when it is granted (R50, R134). -/
abbrev Slot.ReservesIn (x : Slot) (code : Nat) : Prop := x.fields.policy.toNat = 1 ∧ x.fields.target.toNat = code

/-- The ring with the places reserved that the scan of `x` needs. -/
def Ring.reserveScan (x : Slot) (r : Ring) : Ring := { r with reserved := r.reserved + x.fields.scanLength.toNat }

/-- The port with the places reserved that its winner `x` needs, if it needs any. -/
def PortState.reserveScan (x : Slot) (ps : PortState) : PortState :=
  { ps with ring0 := if x.ReservesIn 1 then ps.ring0.reserveScan x else ps.ring0
            ring1 := if x.ReservesIn 2 then ps.ring1.reserveScan x else ps.ring1 }

section
variable {x : Slot} (ps : PortState)

theorem PortState.reserveScan_q0 (h : x.ReservesIn 1) :
    ps.reserveScan x = { ps with ring0 := ps.ring0.reserveScan x } := by
  have other : ¬x.ReservesIn 2 := fun h' => absurd (h.2.symm.trans h'.2) (by decide)
  unfold PortState.reserveScan
  rw [if_pos h, if_neg other]

theorem PortState.reserveScan_q1 (h : x.ReservesIn 2) :
    ps.reserveScan x = { ps with ring1 := ps.ring1.reserveScan x } := by
  have other : ¬x.ReservesIn 1 := fun h' => absurd (h'.2.symm.trans h.2) (by decide)
  unfold PortState.reserveScan
  rw [if_pos h, if_neg other]

theorem PortState.reserveScan_none (h1 : ¬x.ReservesIn 1) (h2 : ¬x.ReservesIn 2) : ps.reserveScan x = ps := by
  unfold PortState.reserveScan
  rw [if_neg h1, if_neg h2]

end

/-- The posting with the places held that it reserves. -/
def Slot.holdScan (x : Slot) : Slot :=
  { x with held := if x.ReservesIn 1 ∨ x.ReservesIn 2 then x.held + x.fields.scanLength.toNat else x.held }

theorem State.updSlot_id {s : State} {i : SlotId} {f : Slot → Slot} (h : f (s.slot i) = s.slot i) : s.updSlot i f = s := by
  have slots : tupd s.slots i f = s.slots := Vector.ext_tget fun j => by
    rw [tget_tupd]
    split
    · next e => exact e ▸ h
    · rfl
  unfold State.updSlot
  rw [slots]

/-- What the winner reserves is given to it and taken in its queue; nothing else changes (R50, R134). -/
theorem State.reserve_eq (s : State) (i : SlotId) :
    s.reserve i = (s.updPort (slotOwner i) (PortState.reserveScan (s.slot i))).updSlot i Slot.holdScan := by
  have unreserved : ¬(s.slot i).ReservesIn 1 → ¬(s.slot i).ReservesIn 2 →
      s = (s.updPort (slotOwner i) (PortState.reserveScan (s.slot i))).updSlot i Slot.holdScan := fun h1 h2 => by
    have port := (s.port (slotOwner i)).reserveScan_none h1 h2
    have slot : (s.slot i).holdScan = s.slot i := by
      simp only [Slot.holdScan, if_neg (not_or.mpr ⟨h1, h2⟩)]
    rw [State.updPort_id port, State.updSlot_id slot]
  unfold State.reserve SlotFields.stalls
  dsimp only
  split
  · next stall =>
    have policy := (s.slot i).fields.policyOf_stall.mp (beq_iff_eq.mp stall)
    split
    · next q e =>
      have code := ((s.slot i).fields.targetOf_queue q).mp e
      rw [State.updPort_congr s _ (g := PortState.reserveScan (s.slot i)), State.updSlot_congr (g := Slot.holdScan)]
      · have hold : (s.slot i).ReservesIn 1 ∨ (s.slot i).ReservesIn 2 := by
          cases q
          · exact .inl ⟨policy, code⟩
          · exact .inr ⟨policy, code⟩
        exact (congrArg (fun n => { s.slot i with held := n }) (if_pos hold)).symm
      · cases q
        · exact (PortState.reserveScan_q0 _ ⟨policy, code⟩).symm
        · exact (PortState.reserveScan_q1 _ ⟨policy, code⟩).symm
    · next other =>
      exact unreserved (fun h => other .q0 (((s.slot i).fields.targetOf_queue .q0).mpr h.2))
        fun h => other .q1 (((s.slot i).fields.targetOf_queue .q1).mpr h.2)
  · next drop =>
    have policy : (s.slot i).fields.policy.toNat ≠ 1 := fun h =>
      drop (beq_iff_eq.mpr ((s.slot i).fields.policyOf_stall.mpr h))
    exact unreserved (fun h => policy h.1) fun h => policy h.1

/-- The slot with its passed-over count after a grant to slot `winner` (R48). -/
def Slot.passOver (won : Prop) [Decidable won] (x : Slot) : Slot :=
  { x with passedOver := if won then 0 else min (x.passedOver + 1) 8 }

/-- Only the members of the due list age (R48). -/
theorem State.age_eq (s : State) (i : SlotId) :
    ∃ v, s.age i = { s with slots := v } ∧
      ∀ j, tget v j = if (s.slot j).state = .due then (s.slot j).passOver (j = i) else s.slot j := by
  obtain ⟨v, e, slots⟩ := s.updSlots_eq (fun j => Slot.passOver (j = i)) s.nodup_dueList
  simp only [State.mem_dueList] at slots
  exact ⟨v, e, slots⟩

/-- A record enters the register; a change of channel settles from now on (R60). -/
theorem Sequencer.select_eq (now : Nat) (r : SweepRecord) (q : Sequencer) :
    q.select now r = { q with
      selected := some r, selectedChannel := some r.channel
      settledTime := if q.selectedChannel = some r.channel then q.settledTime else now + 3 + 4 * r.extension } := by
  unfold Sequencer.select
  dsimp only
  split
  · next same => rw [same]
  · rfl

/-- What a grant does once the reservation is made and the members have aged (R50 steps 3 to 5). -/
def State.setRunning (i : SlotId) (s : State) : State :=
  let s := { s with arbiter := { s.arbiter with lastGranted := slotOwner i } }
  let s := (s.updSlot i fun x => { x with state := .running }).pruneStamps
  let x := s.slot i
  let s := s.updSeq fun q => { q with active := some ⟨i, x.nextSweepIndex⟩ }
  s.updSeq (Sequencer.select s.now (sweepRecord i x.nextSweepIndex x.fields 0 0))

theorem State.slot_setRunning (s : State) (i j : SlotId) :
    (s.setRunning i).slot j = if j = i then { s.slot j with state := .running } else s.slot j :=
  State.slot_updSlot _ i j _

theorem State.seq_setRunning (s : State) (i : SlotId) : (s.setRunning i).seq =
    Sequencer.select s.now (sweepRecord i (s.slot i).nextSweepIndex (s.slot i).fields 0 0)
      { s.seq with active := some ⟨i, (s.slot i).nextSweepIndex⟩ } := by
  have seq : (s.setRunning i).seq = Sequencer.select s.now
      (sweepRecord i ((s.setRunning i).slot i).nextSweepIndex ((s.setRunning i).slot i).fields 0 0)
      { s.seq with active := some ⟨i, ((s.setRunning i).slot i).nextSweepIndex⟩ } := rfl
  rw [seq, State.slot_setRunning, if_pos rfl]
  rfl

/-- The state in which the winner is made RUNNING. -/
theorem State.grantTo_eq (s : State) (i : SlotId) :
    ∃ v, s.grantTo i =
        State.setRunning i { s.updPort (slotOwner i) (PortState.reserveScan (s.slot i)) with slots := v } ∧
      ((s.slot i).state = .due → ∀ j, tget v j = if j = i then (s.slot i).holdScan.passOver True
        else if (s.slot j).state = .due then (s.slot j).passOver False else s.slot j) := by
  obtain ⟨v, e, slots⟩ := (s.reserve i).age_eq i
  have reserved : ∀ j, (s.reserve i).slot j = if j = i then (s.slot j).holdScan else s.slot j := fun j => by
    rw [State.reserve_eq]
    exact State.slot_updSlot _ i j _
  refine ⟨v, ?_, fun due j => ?_⟩
  · show ((s.reserve i).age i).setRunning i = _
    rw [e, State.reserve_eq]
    rfl
  · rw [slots, reserved]
    by_cases h : j = i
    · subst h
      simp [Slot.holdScan, due]
    · simp [h]

section
variable (s : State) (i : SlotId)

/-- The winner is RUNNING, the other members of the due list have aged, and no other slot changes (R48, R50). -/
theorem State.slot_grantTo (due : (s.slot i).state = .due) (j : SlotId) : (s.grantTo i).slot j =
    if j = i then { (s.slot i).holdScan with state := .running, passedOver := 0 }
    else if (s.slot j).state = .due then (s.slot j).passOver False else s.slot j := by
  obtain ⟨v, e, slots⟩ := s.grantTo_eq i
  have running : (s.grantTo i).slot j = if j = i then { tget v j with state := .running } else tget v j :=
    e ▸ State.slot_setRunning _ i j
  rw [running, slots due]
  split <;> rfl

theorem State.port_grantTo (p : Port) : (s.grantTo i).port p =
    if p = slotOwner i then (s.port p).reserveScan (s.slot i) else s.port p := by
  obtain ⟨v, e, _⟩ := s.grantTo_eq i
  rw [e]
  exact State.port_updPort s _ p _

/-- The stamps that no request holds any more leave the order; the others keep theirs (R43, R47). -/
theorem State.arbiter_grantTo : (s.grantTo i).arbiter =
    { s.arbiter with lastGranted := slotOwner i
                     stampOrder := s.arbiter.stampOrder.filter (s.grantTo i).stampInUse } := by
  obtain ⟨v, e, _⟩ := s.grantTo_eq i
  rw [e]
  rfl

/-- The winner's sweep is active and its first conversion selected (R50, R60). -/
theorem State.seq_grantTo (due : (s.slot i).state = .due) : (s.grantTo i).seq =
    Sequencer.select s.now (sweepRecord i (s.slot i).nextSweepIndex (s.slot i).fields 0 0)
      { s.seq with active := some ⟨i, (s.slot i).nextSweepIndex⟩ } := by
  obtain ⟨v, e, slots⟩ := s.grantTo_eq i
  have winner : tget v i = (s.slot i).holdScan.passOver True := (slots due i).trans (if_pos rfl)
  rw [e]
  refine (State.seq_setRunning _ i).trans ?_
  show Sequencer.select s.now (sweepRecord i (tget v i).nextSweepIndex (tget v i).fields 0 0)
    { s.seq with active := some ⟨i, (tget v i).nextSweepIndex⟩ } = _
  rw [winner]
  rfl

/-- A grant touches ports, slots, arbiter and sequencer alone. -/
theorem State.grantTo_rest : s.grantTo i = { s with
    ports := (s.grantTo i).ports, slots := (s.grantTo i).slots, arbiter := (s.grantTo i).arbiter
    seq := (s.grantTo i).seq } := by
  obtain ⟨v, e, _⟩ := s.grantTo_eq i
  rw [e]
  rfl

end

/-! ### The grant (R44, R49, R50) -/

theorem State.grantDue_of {s : State} (selected : s.seq.selected = none) (active : s.seq.active = none)
    (ready : s.seq.link = .ready) (waiting : ∃ j, (s.slot j).state = .due) : s.grantDue = true := by
  obtain ⟨j, due⟩ := waiting
  have member : s.dueList.isEmpty = false :=
    List.isEmpty_eq_false_iff.mpr (List.ne_nil_of_mem ((s.mem_dueList j).mpr due))
  simp [State.grantDue, selected, active, ready, member]

/-- A grant makes its choice, and grants to the winner if there is one. -/
theorem State.grant_cases {s : State} (h : s.grantDue = true) :
    (∃ t, s.ChoiceMade t none ∧ s.grant = t) ∨ ∃ t i, s.ChoiceMade t (some i) ∧ s.grant = t.grantTo i := by
  have made := s.chooseWinner_spec 24 s.length_dueList
  unfold State.grant
  rw [if_pos h]
  split
  · next t i e =>
    rw [e] at made
    exact .inr ⟨t, i, made, rfl⟩
  · next t e =>
    rw [e] at made
    exact .inl ⟨t, made, rfl⟩

/-- The winner is the DUE request that passes its room check where all that are preferred to it fail theirs. -/
theorem State.ChoiceMade.winner_unique {s t : State} {i w : SlotId} (h : s.ChoiceMade t (some w))
    (due : (s.slot i).state = .due) (room : s.RoomFor i)
    (failed : ∀ j, (s.slot j).state = .due → s.Preferred j i → ¬s.RoomFor j) : w = i := by
  obtain ⟨dueW, roomW, failedW, -⟩ := h
  refine Decidable.byContradiction fun ne => ?_
  exact (s.preferred_or ne).elim (fun before => failed w dueW before roomW) fun after => failedW i due after room

/-- Where all candidates fail, nobody wins; otherwise the winner is the one that R49 names. -/
theorem State.grant_nobody {s : State} (h : s.grantDue = true) (failed : ∀ j, (s.slot j).state = .due → ¬s.RoomFor j) :
    s.Stalled (fun j => (s.slot j).state = .due) s.grant := by
  obtain ⟨t, ⟨-, stalled⟩, e⟩ | ⟨t, i, ⟨due, room, -⟩, e⟩ := State.grant_cases h
  · exact e ▸ stalled
  · exact absurd room (failed i due)

theorem State.grant_winner {s : State} {i : SlotId} (h : s.grantDue = true) (due : (s.slot i).state = .due)
    (room : s.RoomFor i) (failed : ∀ j, (s.slot j).state = .due → s.Preferred j i → ¬s.RoomFor j) :
    ∃ t, s.Stalled (fun j => (s.slot j).state = .due ∧ s.Preferred j i) t ∧ (t.slot i).state = .due ∧
      s.grant = t.grantTo i := by
  obtain ⟨t, ⟨all, -⟩, e⟩ | ⟨t, w, made, e⟩ := State.grant_cases h
  · exact absurd room (all i due)
  · obtain rfl := made.winner_unique due room failed
    exact ⟨t, made.stalled, made.due, e⟩

/-- Where the preferred request passes its room check, no request is STALLED before it. -/
theorem State.grant_first {s : State} {i : SlotId} (h : s.grantDue = true) (due : (s.slot i).state = .due)
    (room : ∀ j, (s.slot j).state = .due → s.RoomFor j)
    (best : ∀ j, j ≠ i → (s.slot j).state = .due → s.Preferred i j) : s.grant = s.grantTo i := by
  have chosen : s.chooseWinner 24 = (s, some i) := by
    unfold State.chooseWinner
    split
    · next candidate => exact absurd due (State.candidate_none candidate i)
    · next c candidate =>
      obtain ⟨dueC, bestC⟩ := State.candidate_some candidate
      have : c = i := Decidable.byContradiction fun ne => bestC i due (best c ne dueC)
      subst this
      exact if_pos ((s.passesRoomCheck_iff c).mpr (room c due))
  unfold State.grant
  rw [if_pos h, chosen]

/-! ### What a grant leaves, in the manual's words -/

section
variable (s : State) (i : SlotId)

theorem State.stampOrder_grantTo_sublist : (s.grantTo i).arbiter.stampOrder.Sublist s.arbiter.stampOrder := by
  rw [State.arbiter_grantTo]
  exact List.filter_sublist

theorem State.mem_stampOrder_grantTo (w : Word) : w ∈ (s.grantTo i).arbiter.stampOrder ↔ w ∈ s.arbiter.stampOrder ∧
    ∃ j, (((s.grantTo i).slot j).state = .due ∨ ((s.grantTo i).slot j).state = .stalled) ∧
      ((s.grantTo i).slot j).dueStamp = w := by
  rw [State.arbiter_grantTo, ← State.stampInUse_iff]
  exact List.mem_filter

/-- The passed-over count stops at 8 (R48). -/
theorem Slot.passOver_false (x : Slot) :
    x.passOver False = { x with passedOver := if x.passedOver < 8 then x.passedOver + 1 else 8 } := by
  have count : min (x.passedOver + 1) 8 = if x.passedOver < 8 then x.passedOver + 1 else 8 := by
    split <;> omega
  rw [← count]
  rfl

end

/-- Settles O44: the preferred request passes, so the grant is to it over the state as it stands. -/
theorem grantGoesToThePreferred : Obligations.GrantGoesToThePreferred := by
  intro i s selected active ready due room best x p e index first raised reserves
  have hold : x.ReservesIn 1 ∨ x.ReservesIn 2 ↔ reserves := and_or_left.symm
  have port := s.port_grantTo i
  have won : (s.grantTo i).port p = (s.port p).reserveScan x := (port p).trans (if_pos rfl)
  refine ⟨s.grantTo i, congrArg _ (State.grant_first (State.grantDue_of selected active ready ⟨i, due⟩) due room best),
    ?_, fun j hj => ?_, fun policy target => won.trans (PortState.reserveScan_q0 _ ⟨policy, target⟩),
    fun policy target => won.trans (PortState.reserveScan_q1 _ ⟨policy, target⟩),
    fun unreserved => won.trans (PortState.reserveScan_none _ (fun h => unreserved (hold.mp (.inl h))) fun h =>
      unreserved (hold.mp (.inr h))),
    fun q hq => (port q).trans (if_neg hq), ?_, ?_, s.stampOrder_grantTo_sublist i, s.mem_stampOrder_grantTo i, ?_,
    s.grantTo_rest i⟩
  · rw [s.slot_grantTo i due, if_pos rfl]
    exact congrArg (fun n => { x with state := .running, passedOver := 0, held := n }) (ite_congr (propext hold) (fun _ => rfl) fun _ => rfl)
  · rw [s.slot_grantTo i due, if_neg hj, Slot.passOver_false]
  · rw [State.arbiter_grantTo]
  · rw [State.arbiter_grantTo]
  · rw [s.seq_grantTo i due, Sequencer.select_eq]
    rfl

/-- Settles O45: with nobody's room check passed all are STALLED; with a winner those preferred to it are, and the grant is
to it over the state that this leaves. -/
theorem grantStalls : Obligations.GrantStalls := by
  intro s selected active ready waiting
  have h := State.grantDue_of selected active ready waiting
  refine ⟨fun failed => ?_, ?_⟩
  · have stalled := State.grant_nobody h failed
    refine ⟨s.grant, rfl, fun j => ?_, fun p => ⟨stalled.port p, stalled.flag p⟩, stalled.rest⟩
    split
    · next due => exact (stalled.slot j).1 due
    · next other => exact (stalled.slot j).2 other
  · intro i due room failed x e index first reserves scan raised
    obtain ⟨t, stalled, dueT, granted⟩ := State.grant_winner h due room failed
    have winner : t.slot i = x := (stalled.slot i).2 fun h => State.Preferred.irrefl s i h.2
    have port : ∀ p, (t.grantTo i).port p =
        { s.port p with ring0 := raised p 1 (s.port p).ring0, ring1 := raised p 2 (s.port p).ring1
                        flags := (t.port p).flags } := fun p => by
      rw [t.port_grantTo i p, winner, stalled.port p]
      by_cases own : p = slotOwner i
      · simp [own, PortState.reserveScan, raised, reserves, Ring.reserveScan, scan]
      · simp [own, raised]
    have order := t.mem_stampOrder_grantTo i
    have sublist := t.stampOrder_grantTo_sublist i
    rw [stalled.arbiter] at order sublist
    refine ⟨t.grantTo i, congrArg _ granted, ?_, fun j hj dueJ before => ?_, fun j hj dueJ after => ?_, fun j other => ?_,
      fun p => ⟨?_, fun e => ?_⟩, ?_, ?_, sublist, order, ?_, ?_⟩
    · rw [t.slot_grantTo i dueT, if_pos rfl, winner]
      rfl
    · have state := (stalled.slot j).1 ⟨dueJ, before⟩
      rw [t.slot_grantTo i dueT, if_neg hj, state]
      rfl
    · have same := (stalled.slot j).2 fun h => after h.2
      rw [t.slot_grantTo i dueT, if_neg hj, same, if_pos dueJ, Slot.passOver_false]
    · have same := (stalled.slot j).2 fun h => other h.1
      have hj : j ≠ i := fun e => other (e ▸ due)
      rw [t.slot_grantTo i dueT, if_neg hj, same, if_neg other]
    · rw [port]
    · have flags : ((t.grantTo i).port p).flag e = (t.port p).flag e := by
        rw [port]
        rfl
      rw [flags, stalled.flag]
      simp only [and_assoc]
    · rw [State.arbiter_grantTo]
    · rw [State.arbiter_grantTo, stalled.arbiter]
    · have now : t.now = s.now := by rw [stalled.rest]
      rw [t.seq_grantTo i dueT, Sequencer.select_eq, winner, stalled.seq, now]
      rfl
    · rw [t.grantTo_rest i, stalled.rest]

end Sys2Proof.Machine
end

section
/-! SUPPORT. The stamp order (R41-R43): what each operation does to it, and that every step keeps it exact. -/
namespace Sys2Proof.Machine

/-! ### What keeps every port's setup -/

theorem PortState.setupKept_acknowledge (ps : PortState) (q : QueueId) (number : Word) :
    ps.SetupKept (ps.acknowledge q number) := by
  unfold PortState.acknowledge
  dsimp only
  split
  · exact (ps.setupKept_updRing q _).trans (PortState.setupKept_sourceEmptied _ q)
  · exact ps.setupKept_updRing q _

theorem PortState.setupKept_releaseLatest (ps : PortState) (set : Word) : ps.SetupKept (ps.releaseLatest set) := by
  refine List.foldlRecOn _ _ (.refl ps) fun t ht n _ => ht.trans ?_
  split
  · exact ⟨rfl, rfl, rfl, rfl, rfl, rfl, rfl, rfl, rfl, rfl⟩
  · exact .refl t

theorem PortState.setupKept_tick (ps : PortState) : ps.SetupKept ps.tick := by
  unfold PortState.tick
  split
  · exact ⟨rfl, rfl, rfl, rfl, rfl, rfl, rfl, rfl, rfl, rfl⟩
  · exact .refl ps

theorem PortState.setupKept_timeoutTick (ps : PortState) : ps.SetupKept ps.timeoutTick := by
  unfold PortState.timeoutTick
  split
  · exact ⟨rfl, rfl, rfl, rfl, rfl, rfl, rfl, rfl, rfl, rfl⟩
  · exact .refl ps

theorem PortState.setupKept_timeoutExpiry (ps : PortState) : ps.SetupKept ps.timeoutExpiry := by
  unfold PortState.timeoutExpiry
  split
  · exact ⟨rfl, rfl, rfl, rfl, rfl, rfl, rfl, rfl, rfl, rfl⟩
  · exact .refl ps

theorem PortState.mode_writeConfiguration (ps : PortState) (a : BitVec 12) (v : Word) :
    (ps.writeConfiguration a v).mode = ps.mode := by
  unfold PortState.writeConfiguration
  dsimp only
  (repeat' split) <;> rfl

theorem State.kept_takePost (s : State) (i : SlotId) : s.Kept (s.takePost i) := by
  have posted : s.Kept ((s.updSlot i Slot.posted).addTimerRef (s.slot i).fields) := by
    unfold State.addTimerRef
    split
    · exact (s.kept_updSlot i rfl).trans (State.kept_updTimer _ _ _)
    · exact s.kept_updSlot i rfl
  unfold State.takePost
  dsimp only
  split
  · exact posted.trans (State.kept_makeDue _ _)
  · exact posted

theorem State.kept_takeCancel (s : State) (i : SlotId) (m : CancelMode) : s.Kept (s.takeCancel i m).1 := by
  have drains : ∀ d : Drain, s.Kept (s.updSlot i fun x => { x with state := .draining d }) :=
    fun _ => s.kept_updSlot i rfl
  unfold State.takeCancel
  split
  · exact .refl s
  · exact s.kept_endPosting i _
  · exact s.kept_endPosting i _
  · exact s.kept_endPosting i _
  · exact drains _
  · exact (drains _).trans (State.kept_handCut _ i)
  · exact (drains _).trans (State.kept_handCut _ i)
  · exact .refl s
  · exact .refl s

/-- The slot that a parameter word names is one of the port's own. -/
theorem slotOwner_of_ownSlot {p : Port} {w : Word} {i : SlotId} (h : ownSlot p w = some i) : slotOwner i = p := by
  unfold ownSlot at h
  split at h
  · split at h
    · next owner => exact Option.some.inj h ▸ owner
    · cases h
  · cases h

/-- A POST is answered OK only for an IDLE slot (R6 check 3). -/
theorem State.idle_of_postAnswer {s : State} {i : SlotId} (h : s.postAnswer i = .ok) : (s.slot i).state = .idle := by
  refine Decidable.byContradiction fun active => ?_
  unfold State.postAnswer at h
  rw [if_pos active] at h
  cases h

/-! ### The exact stamp order -/

theorem nodup_one (i : SlotId) : [i].Nodup := List.pairwise_singleton _ i

/-- The slots of `idle` are IDLE, and the stamp order lists exactly the stamps in use, each once and never 0 (R41, R42). -/
structure State.StampsHold (idle : SlotId → Prop) (s : State) : Prop where
  idles : ∀ i, idle i → (s.slot i).state = .idle
  nodup : s.arbiter.stampOrder.Nodup
  nonzero : (0 : Word) ∉ s.arbiter.stampOrder
  exact : ∀ w, w ∈ s.arbiter.stampOrder ↔ s.stampInUse w = true

/-- The slots of the CLOSED ports, which hold no posting (R146). -/
def State.closedSlots (s : State) (i : SlotId) : Prop := (s.port (slotOwner i)).mode = .closed

theorem State.stampsExact_iff (s : State) : s.StampsExact ↔ s.StampsHold s.closedSlots := by
  simp only [State.StampsExact, ← State.stampInUse_iff]
  exact ⟨fun ⟨idles, nodup, nonzero, exact⟩ => ⟨idles, nodup, nonzero, exact⟩,
    fun h => ⟨h.idles, h.nodup, h.nonzero, h.exact⟩⟩

/-- The stamps in use are told by the slots that hold one. -/
theorem State.stampInUse_congr {s t : State} (holds : ∀ i, (t.slot i).holdsStamp = (s.slot i).holdsStamp)
    (stamps : ∀ i, (s.slot i).holdsStamp = true → (t.slot i).dueStamp = (s.slot i).dueStamp) :
    t.stampInUse = s.stampInUse := by
  funext w
  refine congrArg allSlots.any (funext fun i => ?_)
  rw [holds i]
  cases h : (s.slot i).holdsStamp with
  | false => rfl
  | true => rw [stamps i h]

theorem Slot.holdsStamp_eq_false {x : Slot} : x.holdsStamp = false ↔ x.state ≠ .due ∧ x.state ≠ .stalled := by
  rw [← Bool.not_eq_true, Slot.holdsStamp_iff, not_or]

/-- Neither the slot nor what becomes of it holds a stamp. -/
theorem Slot.holdsStamp_of_neither {x y : Slot} (was : x.state ≠ .due ∧ x.state ≠ .stalled)
    (is : y.state ≠ .due ∧ y.state ≠ .stalled) : y.holdsStamp = x.holdsStamp :=
  (Slot.holdsStamp_eq_false.mpr is).trans (Slot.holdsStamp_eq_false.mpr was).symm

namespace State.StampsHold
variable {idle : SlotId → Prop} {s : State}

/-! ### Updates of the state -/

/-- Neither a holder, its stamp nor the order changes, and the slots that have to be IDLE are. -/
theorem of_holders (h : s.StampsHold idle) {t : State} {idle' : SlotId → Prop}
    (order : t.arbiter.stampOrder = s.arbiter.stampOrder) (idles : ∀ i, idle' i → (t.slot i).state = .idle)
    (holds : ∀ i, (t.slot i).holdsStamp = (s.slot i).holdsStamp)
    (stamps : ∀ i, (s.slot i).holdsStamp = true → (t.slot i).dueStamp = (s.slot i).dueStamp) : t.StampsHold idle' where
  idles := idles
  nodup := order ▸ h.nodup
  nonzero := order ▸ h.nonzero
  exact := order ▸ State.stampInUse_congr holds stamps ▸ h.exact

theorem of_same (h : s.StampsHold idle) {t : State} (slots : t.slots = s.slots)
    (order : t.arbiter.stampOrder = s.arbiter.stampOrder) : t.StampsHold idle := by
  have slot : ∀ i, t.slot i = s.slot i := fun i => by rw [State.slot, slots, State.slot]
  exact h.of_holders order (fun i hi => slot i ▸ h.idles i hi) (fun i => slot i ▸ rfl) fun i _ => slot i ▸ rfl

theorem updSlot (h : s.StampsHold idle) (i : SlotId) {f : Slot → Slot}
    (idles : idle i → (f (s.slot i)).state = .idle) (holds : (f (s.slot i)).holdsStamp = (s.slot i).holdsStamp)
    (stamp : (f (s.slot i)).dueStamp = (s.slot i).dueStamp) : (s.updSlot i f).StampsHold idle := by
  have slot := fun j => State.slot_updSlot s i j f
  refine h.of_holders rfl (fun j hj => ?_) (fun j => ?_) fun j _ => ?_
  all_goals
    rw [slot j]
    split
  · next e => exact e ▸ idles (e ▸ hj)
  · exact h.idles j hj
  · next e => exact e ▸ holds
  · rfl
  · next e => exact e ▸ stamp
  · rfl

/-- An update of a slot that leaves its state and its stamp. -/
theorem updSlot_same (h : s.StampsHold idle) (i : SlotId) {f : Slot → Slot}
    (state : (f (s.slot i)).state = (s.slot i).state) (stamp : (f (s.slot i)).dueStamp = (s.slot i).dueStamp) :
    (s.updSlot i f).StampsHold idle :=
  h.updSlot i (fun hi => state.trans (h.idles i hi)) (by unfold Slot.holdsStamp; rw [state]) stamp

/-- A slot in another state than IDLE is none of `idle`. -/
theorem not_idle (h : s.StampsHold idle) {i : SlotId} (active : (s.slot i).state ≠ .idle) : ¬idle i :=
  fun hi => active (h.idles i hi)

/-- An update of an active slot that changes neither whether it holds a stamp nor the stamp. -/
theorem updSlot_active (h : s.StampsHold idle) (i : SlotId) {f : Slot → Slot} (active : (s.slot i).state ≠ .idle)
    (holds : (f (s.slot i)).holdsStamp = (s.slot i).holdsStamp)
    (stamp : (f (s.slot i)).dueStamp = (s.slot i).dueStamp) : (s.updSlot i f).StampsHold idle :=
  h.updSlot i (fun hi => absurd hi (h.not_idle active)) holds stamp

theorem updCounters (h : s.StampsHold idle) (i : SlotId) (f : Counters → Counters) :
    (s.updCounters i f).StampsHold idle := h.updSlot_same i rfl rfl

theorem updPort (h : s.StampsHold idle) (p : Port) (f : PortState → PortState) : (s.updPort p f).StampsHold idle :=
  h.of_same rfl rfl

theorem updTimer (h : s.StampsHold idle) (n : Fin 4) (f : Timer → Timer) : (s.updTimer n f).StampsHold idle :=
  h.of_same rfl rfl

theorem withSeq (h : s.StampsHold idle) (q : Sequencer) : State.StampsHold idle { s with seq := q } :=
  h.of_same rfl rfl

theorem updSeq (h : s.StampsHold idle) (f : Sequencer → Sequencer) : (s.updSeq f).StampsHold idle := h.withSeq _

theorem forgetCut (h : s.StampsHold idle) (i : SlotId) : (s.forgetCut i).StampsHold idle := h.withSeq _

theorem handCut (h : s.StampsHold idle) (i : SlotId) : (s.handCut i).StampsHold idle := h.withSeq _

theorem countFree (h : s.StampsHold idle) : s.countFree.StampsHold idle := h.of_same rfl rfl

theorem raise (h : s.StampsHold idle) (p : Port) (e : Event) : (s.raise p e).StampsHold idle := h.updPort p _

theorem raiseAll (h : s.StampsHold idle) (e : Event) : (s.raiseAll e).StampsHold idle :=
  ((h.raise .a e).raise .b e).raise .c e

/-- A fold of operations that keep the order exact keeps it exact. -/
theorem foldl {α : Type} {f : State → α → State}
    (hf : ∀ (s : State) (a : α), s.StampsHold idle → (f s a).StampsHold idle) (l : List α) {s : State}
    (h : s.StampsHold idle) : (l.foldl f s).StampsHold idle :=
  List.foldlRecOn l f h fun t ht a _ => hf t a ht

/-! ### The issue and the removal of stamps -/

/-- Each stamp of the order is that of one of the 24 slots (R42). -/
theorem length_order (h : s.StampsHold idle) : s.arbiter.stampOrder.length ≤ 24 := by
  refine length_le_of_nodup (m := allSlots.map fun i => (s.slot i).dueStamp) h.nodup fun w hw => ?_
  obtain ⟨i, -, stamp⟩ := (s.stampInUse_iff w).mp ((h.exact w).mp hw)
  exact List.mem_map.mpr ⟨i, mem_allSlots i, stamp⟩

/-- The requests that one occurrence makes DUE held no stamp, and their new one is in no other's use (R42). -/
theorem makeDue (h : s.StampsHold idle) {ids : List SlotId} (distinct : ids.Nodup)
    (active : ∀ i ∈ ids, (s.slot i).state ≠ .idle) (free : ∀ i ∈ ids, (s.slot i).holdsStamp = false) :
    (s.makeDue ids).StampsHold idle := by
  unfold State.makeDue
  split
  · exact h
  · next nonempty =>
    obtain ⟨_, _, _, unused, nonzero, _⟩ := Arbiter.newStamp_spec h.length_order
    obtain ⟨v, e, slots⟩ := s.updSlots_eq (fun _ => Slot.becomeDue s.arbiter.newStamp) distinct
    have slot : ∀ j, tget v j = if j ∈ ids then (s.slot j).becomeDue s.arbiter.newStamp else s.slot j := slots
    dsimp only
    rw [e]
    refine ⟨fun i hi => ?_, ?_, ?_, fun w => ?_⟩
    · have other : i ∉ ids := fun hm => h.not_idle (active i hm) hi
      exact (congrArg Slot.state ((slot i).trans (if_neg other))).trans (h.idles i hi)
    · refine List.nodup_append.mpr ⟨h.nodup, List.pairwise_singleton _ _, fun a ha b hb e => ?_⟩
      exact unused (List.mem_singleton.mp hb ▸ e ▸ ha)
    · exact fun zero => (List.mem_append.mp zero).elim h.nonzero fun last => nonzero (List.mem_singleton.mp last).symm
    · have first : ∃ i, i ∈ ids := by
        obtain ⟨i, rest, rfl⟩ := List.exists_cons_of_ne_nil fun nil => nonempty (List.isEmpty_iff.mpr nil)
        exact ⟨i, List.mem_cons_self⟩
      rw [State.stampInUse_iff]
      show w ∈ s.arbiter.stampOrder ++ [s.arbiter.newStamp] ↔
        ∃ j, ((tget v j).state = .due ∨ (tget v j).state = .stalled) ∧ (tget v j).dueStamp = w
      rw [List.mem_append, List.mem_singleton, h.exact, State.stampInUse_iff]
      constructor
      · rintro (⟨j, holds, stamp⟩ | rfl)
        · have other : j ∉ ids := fun hm => by
            rw [← Slot.holdsStamp_iff, free j hm] at holds
            cases holds
          exact ⟨j, by rw [slot, if_neg other]; exact ⟨holds, stamp⟩⟩
        · obtain ⟨j, hj⟩ := first
          exact ⟨j, by rw [slot, if_pos hj]; exact ⟨.inl rfl, rfl⟩⟩
      · rintro ⟨j, holds, stamp⟩
        rw [slot] at holds stamp
        by_cases hj : j ∈ ids
        · rw [if_pos hj] at stamp
          exact .inr stamp.symm
        · rw [if_neg hj] at holds stamp
          exact .inl ⟨j, holds, stamp⟩

/-- Slot `i` alone gives up its stamp, if it held one: the order without the stamps that no request holds any more is exact
(R42, R43). -/
theorem giveUp (h : s.StampsHold idle) {t : State} {idle' : SlotId → Prop} {i : SlotId}
    (order : t.arbiter.stampOrder = s.arbiter.stampOrder.filter t.stampInUse)
    (idles : ∀ j, idle' j → (t.slot j).state = .idle) (free : (t.slot i).holdsStamp = false)
    (others : ∀ j, j ≠ i → (t.slot j).state = (s.slot j).state ∧ (t.slot j).dueStamp = (s.slot j).dueStamp) :
    t.StampsHold idle' := by
  have fewer : ∀ w, t.stampInUse w = true → s.stampInUse w = true := fun w => by
    rw [State.stampInUse_iff, State.stampInUse_iff]
    rintro ⟨j, holds, stamp⟩
    have other : j ≠ i := fun e => by
      rw [← Slot.holdsStamp_iff, e, free] at holds
      cases holds
    rw [(others j other).1] at holds
    rw [(others j other).2] at stamp
    exact ⟨j, holds, stamp⟩
  refine ⟨idles, order ▸ h.nodup.filter _, order ▸ fun zero => h.nonzero (List.mem_filter.mp zero).1, fun w => ?_⟩
  rw [order, List.mem_filter, h.exact]
  exact and_iff_right_of_imp (fewer w)

theorem mono (h : s.StampsHold idle) {idle' : SlotId → Prop} (sub : ∀ i, idle' i → idle i) : s.StampsHold idle' :=
  ⟨fun i hi => h.idles i (sub i hi), h.nodup, h.nonzero, h.exact⟩

/-! ### The Request Table -/

/-- A request that returns from STALLED keeps its stamp (R51). -/
theorem returnStalled (h : s.StampsHold idle) (p : Port) (q : QueueId) : (s.returnStalled p q).StampsHold idle := by
  refine foldl (fun s i h => ?_) _ h
  split
  · next fits =>
    have stalled := ((Slot.returnsFrom_iff _ q _).mp fits).1
    refine h.updSlot_active i (fun e => ?_) ?_ rfl
    · rw [stalled] at e
      cases e
    · simp [Slot.holdsStamp, stalled]
  · exact h

theorem returnHeld (h : s.StampsHold idle) (p : Port) (x : Slot) (b : Bool) : (s.returnHeld p x b).StampsHold idle := by
  unfold State.returnHeld
  split
  · exact h
  · split
    · dsimp only
      split
      · exact (h.updPort p _).returnStalled p _
      · exact h.updPort p _
    · exact h

/-- An ending gives up the request's stamp, if it holds one, and leaves its slot IDLE (R16, R43). -/
theorem endPosting_idle (h : s.StampsHold idle) (i : SlotId) (o : Option EndOutcome) :
    (s.endPosting i o).StampsHold fun j => idle j ∨ j = i := by
  unfold State.endPosting
  dsimp only
  split
  · next inactive =>
    exact h.of_holders rfl (fun j hj => hj.elim (h.idles j) fun e => e ▸ inactive) (fun _ => rfl) fun _ _ => rfl
  · have ended : ∀ t : State, t.slots = s.slots → t.arbiter = s.arbiter → ((((((t.updSlot i Slot.ended).dropTimerRef
        (s.slot i).fields).pruneStamps).forgetCut i)).returnHeld (slotOwner i) (s.slot i) o.isSome).StampsHold
          fun j => idle j ∨ j = i := fun t slots arbiter => by
      obtain ⟨ts, e⟩ := (t.updSlot i Slot.ended).dropTimerRef_eq (s.slot i).fields
      have slot : ∀ j, ((t.updSlot i Slot.ended).dropTimerRef (s.slot i).fields).slot j =
          if j = i then (s.slot j).ended else s.slot j := fun j => by
        have same : t.slot j = s.slot j := by rw [State.slot, slots, State.slot]
        rw [e, ← same]
        exact State.slot_updSlot t i j Slot.ended
      have order : ((t.updSlot i Slot.ended).dropTimerRef (s.slot i).fields).arbiter = s.arbiter := by
        rw [e]
        exact arbiter
      generalize (t.updSlot i Slot.ended).dropTimerRef (s.slot i).fields = u at slot order
      refine ((h.giveUp (t := u.pruneStamps) (i := i) ?_ (fun j hj => ?_) ?_ fun j hj => ?_).forgetCut i).returnHeld _ _ _
      · rw [← order]
        rfl
      · rw [State.slot_pruneStamps, slot]
        split
        · rfl
        · next other => exact h.idles j (hj.resolve_right other)
      · rw [State.slot_pruneStamps, slot, if_pos rfl]
        rfl
      · rw [State.slot_pruneStamps, slot, if_neg hj]
        exact ⟨rfl, rfl⟩
    cases o with
    | none => exact ended s rfl rfl
    | some o => exact ended _ rfl rfl

theorem endPosting (h : s.StampsHold idle) (i : SlotId) (o : Option EndOutcome) : (s.endPosting i o).StampsHold idle :=
  (h.endPosting_idle i o).mono fun _ => .inl

theorem takeTrigger (h : s.StampsHold idle) (i : SlotId) : (s.takeTrigger i).StampsHold idle := by
  have missed : ((s.updCounters i Counters.missTrigger).raise (slotOwner i) .triggerMissed).StampsHold idle :=
    (h.updCounters i _).raise _ _
  have pending : (s.updSlot i fun x => { x with pendingTrigger := true }).StampsHold idle := h.updSlot_same i rfl rfl
  unfold State.takeTrigger
  dsimp only
  split
  · exact h
  · exact h
  · split
    · split
      · exact missed.endPosting _ _
      · exact missed
    · exact pending
  · split
    · split
      · exact missed.endPosting _ _
      · exact missed
    · exact pending
  · next running =>
    split
    · split
      · have state : ((s.updCounters i Counters.missTrigger).slot i).state = .running :=
          (congrArg Slot.state (State.slot_updSlot_self s i _)).trans running
        exact missed.updSlot_active i (by simp [state]) (Slot.holdsStamp_of_neither (by simp [state]) (by simp)) rfl
      · exact missed
    · exact pending
  · exact h.updCounters i _

/-- The ARMED requests that an occurrence reaches become DUE with one stamp; the others take their triggers one by one. -/
theorem deliverTriggers (h : s.StampsHold idle) {ids : List SlotId} (distinct : ids.Nodup) :
    (s.deliverTriggers ids).StampsHold idle := by
  have armed : ∀ i ∈ ids.filter fun i => (s.slot i).state == .armed, (s.slot i).state = .armed := fun i hi =>
    beq_iff_eq.mp (List.mem_filter.mp hi).2
  have due := h.makeDue (distinct.filter fun i => (s.slot i).state == .armed) (fun i hi => by simp [armed i hi])
    fun i hi => by simp [Slot.holdsStamp, armed i hi]
  exact (foldl (fun _ i h => h.takeTrigger i) _ (foldl (fun _ i h => h.takeTrigger i) _ due)).countFree

theorem completeSweep (h : s.StampsHold idle) (i : SlotId) : (s.completeSweep i).StampsHold idle := by
  have counted := h.updCounters i Counters.completeSweep
  have due : ∀ t : State, t.StampsHold idle → (t.slot i).state = .running → (t.makeDue [i]).StampsHold idle :=
    fun t ht running => ht.makeDue (nodup_one i) (by simp [running]) (by simp [Slot.holdsStamp, running])
  unfold State.completeSweep
  split
  · next running =>
    have state : ((s.updCounters i Counters.completeSweep).slot i).state = .running :=
      (congrArg Slot.state (State.slot_updSlot_self s i _)).trans running
    dsimp only
    split
    · exact counted.endPosting _ _
    · split
      · exact due _ (counted.updSlot_same i rfl rfl) ((congrArg Slot.state (State.slot_updSlot_self _ i _)).trans state)
      · split
        · exact due _ counted state
        · exact counted.updSlot_active i (by simp [state]) (Slot.holdsStamp_of_neither (by simp [state]) (by simp)) rfl
  · exact counted.endPosting _ _
  all_goals exact h

theorem cutSweep (h : s.StampsHold idle) (i : SlotId) : (s.cutSweep i).StampsHold idle := by
  unfold State.cutSweep
  split
  · exact h.endPosting _ _
  all_goals exact h

theorem takeReport (h : s.StampsHold idle) (r : Option Report) : (s.takeReport r).StampsHold idle := by
  unfold State.takeReport
  split
  · exact h
  · split
    · exact h.completeSweep _
    · exact h.cutSweep _

theorem handReport (h : s.StampsHold idle) (r : Option Report) : (s.handReport r).StampsHold idle := by
  unfold State.handReport
  split
  · exact h
  · split
    · exact h.withSeq _
    · exact h.cutSweep _

theorem takeFirstReport (h : s.StampsHold idle) : s.takeFirstReport.StampsHold idle := by
  unfold State.takeFirstReport
  split
  · exact h
  · exact (h.withSeq _).completeSweep _

theorem takeReports (h : s.StampsHold idle) (which : SlotId → Bool) : (s.takeReports which).StampsHold idle :=
  foldl (fun _ i h => h.completeSweep i) _ (h.withSeq _)

theorem takeReportsWhen (h : s.StampsHold idle) (w : ReportTaking) : (s.takeReportsWhen w).StampsHold idle := by
  cases w
  · exact h.takeReports _
  · exact h

/-- A POST is of an IDLE slot, which holds no stamp, at a port that may hold postings (R6, R9). -/
theorem takePost (h : s.StampsHold idle) {i : SlotId} (may : ¬idle i) (inactive : (s.slot i).state = .idle) :
    (s.takePost i).StampsHold idle := by
  have posted : (s.updSlot i Slot.posted).StampsHold idle :=
    h.updSlot i (fun hi => absurd hi may) (Slot.holdsStamp_of_neither (by simp [inactive]) (by simp [Slot.posted])) rfl
  have referred : ((s.updSlot i Slot.posted).addTimerRef (s.slot i).fields).StampsHold idle ∧
      (((s.updSlot i Slot.posted).addTimerRef (s.slot i).fields).slot i).state = .armed := by
    have armed : ((s.updSlot i Slot.posted).slot i).state = .armed :=
      congrArg Slot.state (State.slot_updSlot_self s i _)
    unfold State.addTimerRef
    split
    · exact ⟨posted.updTimer _ _, armed⟩
    · exact ⟨posted, armed⟩
  unfold State.takePost
  dsimp only
  split
  · exact referred.1.makeDue (nodup_one i) (by simp [referred.2]) (by simp [Slot.holdsStamp, referred.2])
  · exact referred.1

theorem takeCancel (h : s.StampsHold idle) (i : SlotId) (m : CancelMode) : (s.takeCancel i m).1.StampsHold idle := by
  have drains : ∀ d : Drain, (s.slot i).state = .running ∨ (∃ e, (s.slot i).state = .draining e) →
      (s.updSlot i fun x => { x with state := .draining d }).StampsHold idle := by
    rintro d (state | ⟨e, state⟩)
    all_goals exact h.updSlot_active i (by simp [state]) (Slot.holdsStamp_of_neither (by simp [state]) (by simp)) rfl
  unfold State.takeCancel
  split
  · exact h
  · exact h.endPosting _ _
  · exact h.endPosting _ _
  · exact h.endPosting _ _
  · next running => exact drains _ (.inl running)
  · next running => exact (drains _ (.inl running)).handCut i
  · next draining => exact (drains _ (.inr ⟨_, draining⟩)).handCut i
  · exact h
  · exact h

/-! ### Delivery and the pipeline -/

theorem deliverOwn (h : s.StampsHold idle) (x : Sample) (rec : SampleRecord) : (s.deliverOwn x rec).StampsHold idle := by
  unfold State.deliverOwn
  dsimp only
  split
  · exact h
  · next ps b _ =>
    have kept : ∀ y : Slot, (y.consumePlace b).state = y.state ∧ (y.consumePlace b).dueStamp = y.dueStamp := fun y => by
      unfold Slot.consumePlace
      split <;> exact ⟨rfl, rfl⟩
    exact ((h.updPort _ _).updCounters _ _).updSlot_same _ (kept _).1 (kept _).2

theorem deliver (h : s.StampsHold idle) (c : Option Port) (x : Sample) : (s.deliver c x).StampsHold idle := by
  have own := (h.updCounters x.slot fun c => { c with entriesProduced := c.entriesProduced + 1 }).deliverOwn x
    (s.copyRecord (slotOwner x.slot) false x)
  unfold State.deliver
  dsimp only
  split
  · refine foldl (fun t p ht => ?_) _ own
    split
    · exact ht.updPort p _
    · exact ht
  · exact own

theorem readSweep (h : s.StampsHold idle) (c : Option Port) (r : SweepRecord) (start : DWord) :
    (s.readSweep c r start).1.StampsHold idle := by
  unfold State.readSweep
  split
  · exact h
  · split
    · exact (h.updSeq _).deliver _ _
    · dsimp only
      exact h.updSeq _

theorem readout (h : s.StampsHold idle) (c : Option Port) : (s.readout c).1.StampsHold idle := by
  unfold State.readout
  dsimp only
  split
  · exact (h.updSeq _).readSweep _ _ _
  all_goals
    dsimp only
    exact h.updSeq _

theorem refill (h : s.StampsHold idle) (r : SweepRecord) : (s.refill r).StampsHold idle := by
  unfold State.refill
  split <;> exact h.updSeq _

theorem startSelected (h : s.StampsHold idle) (r : SweepRecord) : (s.startSelected r).StampsHold idle := by
  have started : (((s.readout none).1.updSeq fun q => { q with selected := none }).beginConversion
      (.sweep r)).StampsHold idle := ((h.readout none).updSeq _).updSeq _
  unfold State.startSelected
  dsimp only
  refine handReport ?_ _
  split
  · exact started.refill r
  · exact started

theorem flushOrIdle (h : s.StampsHold idle) (c : Option Port) : (s.flushOrIdle c).StampsHold idle := by
  unfold State.flushOrIdle
  split
  · exact ((h.readout c).updSeq _).handReport _
  · exact h.updSeq _

theorem afterRemoval (h : s.StampsHold idle) (c : Option Port) : (s.afterRemoval c).StampsHold idle := by
  unfold State.afterRemoval
  split
  · exact h.flushOrIdle c
  · exact h

theorem cutUnstarted (h : s.StampsHold idle) (i : SlotId) : (s.cutUnstarted i).StampsHold idle := by
  have dropped := h.updSeq Sequencer.dropSelected
  unfold State.cutUnstarted
  dsimp only
  split
  · refine ((takeReport ?_ _).countFree).countFree
    split
    · exact (dropped.afterRemoval none).takeReports _
    · exact dropped.afterRemoval none
  · exact (((dropped.takeReport _).afterRemoval none).countFree).countFree

theorem cutAfter (h : s.StampsHold idle) (i : SlotId) (e : Nat) : (s.cutAfter i e).StampsHold idle := by
  have truncated : (s.updSlot i fun x => { x with truncatedAt := some e }).StampsHold idle := h.updSlot_same i rfl rfl
  unfold State.cutAfter
  dsimp only
  split
  · exact (truncated.updSeq _).afterRemoval none
  · exact truncated

theorem cut (h : s.StampsHold idle) (i : SlotId) : (s.cut i).StampsHold idle := by
  have forgot := h.forgetCut i
  unfold State.cut State.takeCut
  dsimp only
  split
  · split
    · split
      · exact forgot.cutUnstarted i
      · exact forgot
    · split
      · exact forgot
      · exact forgot.cutAfter i _
  · exact h

theorem startConversion (h : s.StampsHold idle) (w : ReportTaking) : (s.startConversion w).StampsHold idle := by
  unfold State.startConversion
  split
  · split
    · exact (h.startSelected _).takeReportsWhen w
    · exact h
  · exact h

theorem endConversion (h : s.StampsHold idle) (raw : Word) : (s.endConversion raw).StampsHold idle := by
  have ended : ∀ t : State, t.StampsHold idle → (let u := t.updSeq fun q =>
      { q with buffer := q.converting, converting := none, doneTimeout := none, converterCode := raw }
      if u.seq.selected.isNone then u.flushOrIdle none else u).StampsHold idle := by
    intro t ht
    dsimp only
    split
    · exact (ht.updSeq _).flushOrIdle none
    · exact ht.updSeq _
  refine ended _ ?_
  split
  · exact (h.updSeq _).raiseAll _
  · exact h

theorem converterDone (h : s.StampsHold idle) (raw : Word) (w : ReportTaking) :
    (s.converterDone raw w).StampsHold idle := by
  unfold State.converterDone
  split
  · exact (h.endConversion raw).takeReportsWhen w
  · exact h

theorem doneTimeout (h : s.StampsHold idle) : s.doneTimeout.StampsHold idle := by
  unfold State.doneTimeout
  split
  · split
    · exact foldl (fun _ i h => h.endPosting i _) _ ((h.updSeq _).raiseAll _)
    · exact (h.updSeq _).raiseAll _
    · exact h
  · exact h

/-! ### The arbiter -/

/-- A failed candidate keeps the stamp that it held when it was DUE (R41, R49). -/
theorem stalled (h : s.StampsHold idle) {t : State} {failed : SlotId → Prop} (k : s.Stalled failed t)
    (due : ∀ j, failed j → (s.slot j).state = .due) : t.StampsHold idle := by
  have state : ∀ j, (t.slot j).state = (s.slot j).state ∨ (s.slot j).state = .due ∧ (t.slot j).state = .stalled :=
    fun j => (Classical.em (failed j)).elim (fun hj => .inr ⟨due j hj, by rw [(k.slot j).1 hj]⟩)
      fun hj => .inl (by rw [(k.slot j).2 hj])
  refine h.of_holders (congrArg Arbiter.stampOrder k.arbiter) (fun j hj => ?_) (fun j => ?_) fun j _ => by rw [k.slot_eq j]
  · have inactive := h.idles j hj
    exact (state j).elim (·.trans inactive) fun ⟨isDue, _⟩ => nomatch inactive.symm.trans isDue
  · obtain same | ⟨isDue, isStalled⟩ := state j
    · unfold Slot.holdsStamp
      rw [same]
    · simp [Slot.holdsStamp, isDue, isStalled]

/-- The winner is RUNNING and gives up its stamp (R43, R50). -/
theorem grantTo (h : s.StampsHold idle) {i : SlotId} (due : (s.slot i).state = .due) :
    (s.grantTo i).StampsHold idle := by
  have may : ¬idle i := h.not_idle (by simp [due])
  have others : ∀ j, j ≠ i → ((s.grantTo i).slot j).state = (s.slot j).state ∧
      ((s.grantTo i).slot j).dueStamp = (s.slot j).dueStamp := fun j hj => by
    rw [s.slot_grantTo i due, if_neg hj]
    split <;> exact ⟨rfl, rfl⟩
  refine h.giveUp (congrArg Arbiter.stampOrder (s.arbiter_grantTo i)) (fun j hj => ?_) ?_ others
  · exact (others j fun e => may (e ▸ hj)).1.trans (h.idles j hj)
  · rw [s.slot_grantTo i due, if_pos rfl]
    rfl

theorem grant (h : s.StampsHold idle) : s.grant.StampsHold idle := by
  by_cases hd : s.grantDue = true
  · obtain ⟨t, ⟨-, k⟩, e⟩ | ⟨t, i, made, e⟩ := State.grant_cases hd
    · exact e ▸ h.stalled k fun _ => id
    · exact e ▸ (h.stalled made.stalled fun _ => And.left).grantTo made.due
  · unfold State.grant
    rw [if_neg hd]
    exact h

/-! ### Ports and resets -/

theorem releaseTimers (h : s.StampsHold idle) (p : Port) : (s.releaseTimers p).StampsHold idle := by
  refine foldl (fun s n h => ?_) _ h
  split
  · exact h.updTimer n _
  · exact h

theorem leavePipeline (h : s.StampsHold idle) (p : Port) : (s.leavePipeline p).StampsHold idle := by
  unfold State.leavePipeline
  dsimp only
  refine countFree ?_
  split
  · exact (h.updSeq _).afterRemoval _
  · exact h.updSeq _

/-- The endings of a CLOSE leave every slot of the port IDLE (R87). -/
theorem endPortPostings (h : s.StampsHold idle) (p : Port) :
    (s.endPortPostings p).StampsHold fun i => idle i ∨ slotOwner i = p := by
  have ended : ∀ (l : List SlotId) (s : State) (idle : SlotId → Prop), s.StampsHold idle →
      (l.foldl (fun s i => s.endPosting i none) s).StampsHold fun i => idle i ∨ i ∈ l := by
    intro l
    induction l with
    | nil => exact fun s idle h => h.mono fun i hi => hi.resolve_right List.not_mem_nil
    | cons i l ih =>
      intro s idle h
      refine (ih _ _ (h.endPosting_idle i none)).mono fun j hj => ?_
      rw [List.mem_cons] at hj
      exact (or_assoc ..).mpr hj
  exact (ended _ s idle h).mono fun i hi => hi.imp_right (mem_portSlots p i).mpr

theorem leaveLease (h : s.StampsHold idle) (p : Port) : (s.leaveLease p).StampsHold idle := by
  obtain ⟨c, k, e⟩ := s.leaveLease_eq p
  exact e ▸ h.of_same rfl rfl

/-- A CLOSE ends every posting of the port before the port is CLOSED (R87, R148). -/
theorem closeEffects (h : s.StampsHold idle) (p : Port) :
    (s.closeEffects p).StampsHold fun i => idle i ∨ slotOwner i = p := by
  have closing : (s.closing p).StampsHold fun i => idle i ∨ slotOwner i = p :=
    (((h.takeReports _).endPortPostings p).leavePipeline p).releaseTimers p
  rw [s.closeEffects_eq]
  exact (closing.leaveLease p).updPort p _

end State.StampsHold

/-! ### Steps -/

namespace State.StampsExact
variable {s : State}

theorem holds (h : s.StampsExact) : s.StampsHold s.closedSlots := s.stampsExact_iff.mp h

/-- No port has changed its mode. -/
theorem of_modes {t : State} (modes : ∀ p, (t.port p).mode = (s.port p).mode) (h : t.StampsHold s.closedSlots) :
    t.StampsExact :=
  t.stampsExact_iff.mpr (h.mono fun i hi => (modes (slotOwner i)).symm.trans hi)

theorem of_kept {t : State} (k : s.Kept t) (h : t.StampsHold s.closedSlots) : t.StampsExact := of_modes k.mode h

theorem of_same (h : s.StampsExact) {t : State} (modes : ∀ p, (t.port p).mode = (s.port p).mode)
    (slots : t.slots = s.slots) (arbiter : t.arbiter = s.arbiter) : t.StampsExact :=
  of_modes modes (h.holds.of_same slots (congrArg Arbiter.stampOrder arbiter))

/-- An update of a port that leaves its mode. -/
theorem updPort (h : s.StampsExact) (p : Port) {f : PortState → PortState}
    (mode : (f (s.port p)).mode = (s.port p).mode) : (s.updPort p f).StampsExact := by
  refine h.of_same (fun q => ?_) rfl rfl
  rw [State.port_updPort]
  split
  · next e => exact e ▸ mode
  · rfl

/-- An OPEN port holds what postings it likes. -/
theorem openPort (h : s.StampsExact) (p : Port) : (s.openPort p).1.StampsExact := by
  have opened : ∀ f : PortState → PortState, (f (s.port p)).mode = .opened → (s.updPort p f).StampsExact :=
    fun f mode => by
      refine (State.stampsExact_iff _).mpr ((h.holds.updPort p f).mono fun i hi => ?_)
      unfold State.closedSlots at hi
      rw [State.port_updPort] at hi
      split at hi
      · next owner =>
        rw [owner, mode] at hi
        cases hi
      · exact hi
  unfold State.openPort
  dsimp only
  split
  · exact h
  · split
    · exact h
    · split
      · exact h
      · refine opened _ ?_
        rw [PortState.emptySamples_eq]
        rfl

/-- The postings of the port that a CLOSE has CLOSED have ended; no other port changes its mode. -/
theorem closeEffects (h : s.StampsExact) (p : Port) : (s.closeEffects p).StampsExact := by
  refine (State.stampsExact_iff _).mpr ((h.holds.closeEffects p).mono fun i hi => ?_)
  unfold State.closedSlots at *
  by_cases owner : slotOwner i = p
  · exact .inr owner
  · rw [s.closeEffects_eq, State.port_updPort_ne _ _ owner, State.port_leaveLease, (s.kept_closing p).mode] at hi
    exact .inl hi

/-- The slots of a CLOSED port, which are IDLE, take their reset values (R5). -/
theorem resetSlots (h : s.StampsExact) {p : Port} (mode : (s.port p).mode = .closed) {t : State}
    (modes : ∀ q, (t.port q).mode = (s.port q).mode) (arbiter : t.arbiter = s.arbiter)
    (slots : ∀ i, t.slot i = if slotOwner i = p then Slot.reset else s.slot i) : t.StampsExact := by
  have own : ∀ i, slotOwner i = p → (s.slot i).state = .idle ∧ t.slot i = Slot.reset := fun i owner =>
    ⟨h.1 i (owner ▸ mode), (slots i).trans (if_pos owner)⟩
  have other : ∀ i, slotOwner i ≠ p → t.slot i = s.slot i := fun i owner => (slots i).trans (if_neg owner)
  refine of_modes modes (h.holds.of_holders (congrArg Arbiter.stampOrder arbiter) (fun i hi => ?_) (fun i => ?_)
    fun i hi => ?_)
  all_goals by_cases owner : slotOwner i = p
  · exact congrArg Slot.state (own i owner).2
  · exact (congrArg Slot.state (other i owner)).trans (h.1 i hi)
  · obtain ⟨inactive, reset⟩ := own i owner
    exact Slot.holdsStamp_of_neither (by simp [inactive]) (by simp [reset, Slot.reset])
  · exact congrArg Slot.holdsStamp (other i owner)
  · simp [Slot.holdsStamp, (own i owner).1] at hi
  · exact congrArg Slot.dueStamp (other i owner)

theorem portReset (h : s.StampsExact) (p : Port) : (s.portReset p).StampsExact := by
  have closed : ∀ u : State, u.StampsExact → (u.port p).mode = .closed → ∀ v : Vector Slot 24,
      (∀ i, tget v i = if slotOwner i = p then Slot.reset else u.slot i) →
      State.StampsExact { u.updPort p PortState.clear with slots := v } := fun u hu mode v slots => by
    refine hu.resetSlots mode (fun q => ?_) rfl slots
    refine (congrArg PortState.mode (State.port_updPort u p q _)).trans ?_
    split
    · next e => exact e ▸ mode.symm
    · rfl
  obtain ⟨v, e, slots⟩ := s.portReset_eq p
  rw [e]
  cases mode : (s.port p).mode with
  | opened =>
    rw [if_pos mode] at slots
    rw [if_pos rfl]
    refine closed _ (h.closeEffects p) ?_ v slots
    rw [s.closeEffects_eq, State.port_updPort_self]
    rfl
  | closed =>
    rw [if_neg (by simp [mode])] at slots
    rw [if_neg nofun]
    exact closed s h mode v slots

theorem resetAll (s : State) (b : Bool) : (s.resetAll b).StampsExact := by
  have idle : ∀ i, ((s.resetAll b).slot i).state = .idle := fun i => by
    show (tget (Vector.replicate 24 Slot.reset) i).state = .idle
    rw [tget_replicate]
    rfl
  refine ⟨fun i _ => idle i, List.nodup_nil, List.not_mem_nil, fun w => ⟨fun h => absurd h List.not_mem_nil, ?_⟩⟩
  rintro ⟨i, holds, -⟩
  simp [idle i] at holds

theorem passMicrosecond (h : s.StampsExact) : s.passMicrosecond.StampsExact := by
  unfold State.passMicrosecond
  split
  · exact h
  · have timers : ∀ t : State, t.StampsExact →
        (allTimers.foldl (fun s n => s.updTimer n Timer.tick) t).StampsExact := fun t ht =>
      List.foldlRecOn _ _ ht fun u hu n _ => hu.of_same (fun _ => rfl) rfl rfl
    have ports : ∀ t : State, t.StampsExact →
        (allPorts.foldl (fun s p => s.updPort p PortState.tick) t).StampsExact := fun t ht =>
      List.foldlRecOn _ _ ht fun u hu p _ => hu.updPort p (u.port p).setupKept_tick.mode
    exact (ports _ (timers _ (h.of_same (fun _ => rfl) rfl rfl))).of_same (fun _ => rfl) rfl rfl

theorem post (h : s.StampsExact) {p : Port} (opened : (s.port p).mode = .opened) : (s.post p).1.StampsExact := by
  unfold State.post
  split
  · exact h
  · next i own =>
    dsimp only
    split
    · next answer =>
      have may : ¬s.closedSlots i := by
        unfold State.closedSlots
        rw [slotOwner_of_ownSlot own, opened]
        exact nofun
      exact of_kept (s.kept_takePost i) (h.holds.takePost may (State.idle_of_postAnswer answer))
    · exact h

theorem cancel (h : s.StampsExact) (p : Port) : (s.cancel p).1.StampsExact := by
  unfold State.cancel
  split
  · exact h
  · split
    · exact h
    · exact of_kept (s.kept_takeCancel _ _) (h.holds.takeCancel _ _)

theorem ackQueue (h : s.StampsExact) (p : Port) : (s.ackQueue p).1.StampsExact := by
  unfold State.ackQueue
  split
  · exact h
  · dsimp only
    split
    · next q _ _ _ =>
      have acknowledged := h.updPort p ((s.port p).setupKept_acknowledge q (s.param p 1)).mode
      exact of_kept (State.kept_returnStalled _ p _) (acknowledged.holds.returnStalled p _)
    · exact h

theorem popCompletion (h : s.StampsExact) (p : Port) : (s.popCompletion p).1.StampsExact := by
  unfold State.popCompletion
  split
  · exact h
  · exact h.updPort p rfl

theorem takeLease (h : s.StampsExact) (p : Port) : (s.takeLease p).1.StampsExact := by
  unfold State.takeLease
  dsimp only
  split
  · exact h
  · split
    · exact h.of_same (fun _ => rfl) rfl rfl
    · exact h

theorem dropLease (h : s.StampsExact) : s.dropLease.StampsExact := by
  obtain ⟨t, r, e, -⟩ := s.dropLease_eq
  exact e ▸ h.of_same (fun _ => rfl) rfl rfl

theorem raise (h : s.StampsExact) (p : Port) (e : Event) : (s.raise p e).StampsExact := h.updPort p rfl

theorem leaseExpiry (h : s.StampsExact) : s.leaseExpiry.StampsExact := by
  obtain ⟨t, e, -⟩ := s.discardProvisional_eq
  unfold State.leaseExpiry
  rw [e]
  split
  · split
    · exact (h.of_same (fun _ => rfl) rfl rfl).raise _ _
    · exact h
  · exact h

theorem takeWriteReport (h : s.StampsExact) (b : Bool) : (s.takeWriteReport b).StampsExact := by
  unfold State.takeWriteReport
  split
  · exact (h.of_same (fun _ => rfl) rfl rfl).raise _ _
  · exact (h.of_same (fun _ => rfl) rfl rfl).raise _ _
  · exact h
  · exact h

theorem restartConverter (h : s.StampsExact) : s.restartConverter.1.StampsExact := by
  unfold State.restartConverter
  split
  · exact h.of_same (fun _ => rfl) rfl rfl
  · exact h
  · exact h

theorem of_coreSame (h : s.StampsExact) {t : State} (e : s.CoreSame t) : t.StampsExact :=
  h.of_same (fun p => (e.port p).mode) e.slots e.arbiter

/-- Every kind of work keeps the stamp order exact. -/
theorem keptBySteps : KeptBySteps State.StampsExact where
  words _ _ e h := h.of_coreSame e
  lineLow _ p _ h := h.updPort p rfl
  slotFields _ i _ _ h := of_modes (fun _ => rfl) (h.holds.updSlot_same i rfl rfl)
  configuration s p a v _ h := h.updPort p ((s.port p).mode_writeConfiguration a v)
  openPort _ p h := h.openPort p
  closeEffects _ p _ h := h.closeEffects p
  portReset _ p h := h.portReset p
  resetAll s b _ := resetAll s b
  post _ _ opened h := h.post opened
  cancel _ p h := h.cancel p
  deliverTriggers s _ h :=
    of_kept (s.kept_deliverTriggers _) (h.holds.deliverTriggers (List.Pairwise.filter _ nodup_allSlots))
  trigger s i _ h := of_kept (s.kept_deliverTriggers _) (h.holds.deliverTriggers (nodup_one i))
  ackQueue _ p h := h.ackQueue p
  releaseSlots s p h := h.updPort p ((s.port p).setupKept_releaseLatest _).mode
  popCompletion _ p h := h.popCompletion p
  claimTimer _ _ _ _ h := h.of_same (fun _ => rfl) rfl rfl
  setTimer _ _ _ _ h := h.of_same (fun _ => rfl) rfl rfl
  startTimer _ _ _ _ h := h.of_same (fun _ => rfl) rfl rfl
  stopTimer _ _ _ _ h := h.of_same (fun _ => rfl) rfl rfl
  releaseTimer _ _ h := h.of_same (fun _ => rfl) rfl rfl
  line _ _ _ h := h.of_same (fun _ => rfl) rfl rfl
  renew _ h := h.of_same (fun _ => rfl) rfl rfl
  takeLease _ p _ h := h.takeLease p
  endLease _ h := h.dropLease
  leaseExpiry _ h := h.leaseExpiry
  setProvisional _ _ _ _ _ h := h.of_same (fun _ => rfl) rfl rfl
  dropProvisional _ _ h := h.of_same (fun _ => rfl) rfl rfl
  commitPending _ _ _ h := h.of_same (fun _ => rfl) rfl rfl
  fillCommit _ _ _ _ h := h.of_same (fun _ => rfl) rfl rfl
  store _ _ h := h.of_same (fun _ => rfl) rfl rfl
  restartConverter _ h := h.restartConverter
  timerUnit _ _ h := h.of_same (fun _ => rfl) rfl rfl
  timerLoad _ _ _ h := h.of_same (fun _ => rfl) rfl rfl
  grant s h := of_kept s.kept_grant h.holds.grant
  startConversion s w h := of_kept (s.kept_startConversion w) (h.holds.startConversion w)
  converterDone s raw w h := of_kept (s.kept_converterDone raw w) (h.holds.converterDone raw w)
  takeFirstReport s h := of_kept s.kept_takeFirstReport h.holds.takeFirstReport
  doneTimeout s h := of_kept s.kept_doneTimeout h.holds.doneTimeout
  cut s i h := of_kept (s.kept_cut i) (h.holds.cut i)
  microsecond _ h := h.passMicrosecond
  timeoutTick s p h := h.updPort p (s.port p).setupKept_timeoutTick.mode
  timeoutExpiry s p h := h.updPort p (s.port p).setupKept_timeoutExpiry.mode
  takeWriteReport _ b h := h.takeWriteReport b
  installRecords _ _ h := h.of_same (fun _ => rfl) rfl rfl
  emptyCommit _ h := h.of_same (fun _ => rfl) rfl rfl

end State.StampsExact

/-- Settles O58: every kind of work keeps the stamp order exact, so every step does. -/
theorem stepKeepsStamps : Obligations.StepKeepsStamps := fun s t h e =>
  State.StampsExact.keptBySteps.step s t h e

end Sys2Proof.Machine
end

section
/-! SUPPORT. The words of the shared view as numbers: each field at its bits (R41, R74, R75, R96, R110, R142, §11.9). -/
namespace Sys2Proof.Machine

/-! ### The regions of the shared view (§11.2) -/

section
variable (s : State) (p : Port)

theorem State.windowWord_shared {n : Nat} (first : 0xA00 ≤ n) (last : n ≤ 0xA33) :
    s.windowWord p (BitVec.ofNat 12 n) = s.sharedWord n := by
  unfold State.windowWord
  rw [toNat_address (by omega)]
  dsimp only
  iterate 19 rw [if_neg (by omega)]
  rw [if_pos ⟨first, last⟩]

theorem State.windowWord_timer (n : Fin 4) {w : Nat} (hw : w < 8) :
    s.windowWord p (BitVec.ofNat 12 (0xA10 + 8 * n.val + w)) = (s.timer n).word w := by
  have place : (0xA10 + 8 * n.val + w - 0xA10) / 8 = n.val := by omega
  have word : (0xA10 + 8 * n.val + w) % 8 = w := by omega
  have region : 0xA10 ≤ 0xA10 + 8 * n.val + w ∧ 0xA10 + 8 * n.val + w < 0xA30 := by omega
  rw [s.windowWord_shared p (by omega) (by omega)]
  unfold State.sharedWord
  iterate 9 rw [if_neg (by omega)]
  rw [dif_pos region, word]
  exact congrArg (fun m => (s.timer m).word w) (Fin.ext place)

theorem State.windowWord_line (n : Fin 4) :
    s.windowWord p (BitVec.ofNat 12 (0xA30 + n.val)) = (s.line n).word := by
  have region : 0xA30 ≤ 0xA30 + n.val ∧ 0xA30 + n.val < 0xA34 := by omega
  rw [s.windowWord_shared p (by omega) (by omega)]
  unfold State.sharedWord
  iterate 9 rw [if_neg (by omega)]
  rw [dif_neg (by omega), dif_pos region]
  exact congrArg (fun m => (s.line m).word) (Fin.ext (Nat.add_sub_cancel_left ..))

theorem State.windowWord_coefficient (ch : Channel) {w : Nat} (hw : w < 8) :
    s.windowWord p (BitVec.ofNat 12 (0xB00 + 8 * ch.toNat + w)) = s.coefficientWord ch w := by
  have lt := ch.isLt
  have place : (0xB00 + 8 * ch.toNat + w - 0xB00) / 8 = ch.toNat := by omega
  have word : (0xB00 + 8 * ch.toNat + w) % 8 = w := by omega
  unfold State.windowWord
  rw [toNat_address (by omega)]
  dsimp only
  iterate 20 rw [if_neg (by omega)]
  rw [if_pos (by omega), place, word, BitVec.ofNat_toNat, BitVec.setWidth_eq]

/-- The addresses between the general words and the timers are unassigned. -/
theorem State.windowWord_sharedGap {n : Nat} (first : 0xA09 ≤ n) (last : n ≤ 0xA0F) :
    s.windowWord p (BitVec.ofNat 12 n) = 0 := by
  rw [s.windowWord_shared p (by omega) (by omega)]
  unfold State.sharedWord
  iterate 9 rw [if_neg (by omega)]
  rw [dif_neg (by omega), dif_neg (by omega)]

end

/-! ### General words -/

theorem State.sharedWord_due (s : State) :
    s.sharedWord 0xA01 = numWord (s.dueList.length + 256 * portCode s.arbiter.lastGranted) := by
  have count : s.dueList.length ≤ 24 := List.length_filter_le _ allSlots
  show putNum 0 s.dueList.length ||| putNum 8 (portCode s.arbiter.lastGranted) = _
  simp (disch := omega) only [putNum_zero, numWord_or_putNum, Nat.reducePow]

theorem State.sharedWord_timestampLow (s : State) : s.sharedWord 0xA02 = numWord s.now := by
  show (BitVec.ofNat 32 s.now).extractLsb' 0 16 = BitVec.ofNat 16 s.now
  apply BitVec.eq_of_toNat_eq
  simp

theorem State.sharedWord_timestampHigh (s : State) : s.sharedWord 0xA03 = numWord (s.now / 65536) := by
  show (BitVec.ofNat 32 s.now).extractLsb' 16 16 = BitVec.ofNat 16 (s.now / 65536)
  apply BitVec.eq_of_toNat_eq
  simp [Nat.shiftRight_eq_div_pow]
  omega

theorem State.sharedWord_open (s : State) : s.sharedWord 0xA04 = numWord (((s.port .a).mode == .opened).toNat +
    2 * ((s.port .b).mode == .opened).toNat + 4 * ((s.port .c).mode == .opened).toNat) := by
  have a := ((s.port .a).mode == .opened).toNat_lt
  have b := ((s.port .b).mode == .opened).toNat_lt
  show putBool 0 ((s.port .a).mode == .opened) ||| putBool 1 ((s.port .b).mode == .opened) |||
    putBool 2 ((s.port .c).mode == .opened) = _
  simp (disch := omega) only [putBool_eq, putNum_zero, numWord_or_putNum, Nat.reducePow]

theorem StoreOp.code_le (op : StoreOp) : op.code ≤ 4 := by
  cases op <;> simp [StoreOp.code]

theorem State.sharedWord_store (s : State) :
    s.sharedWord 0xA08 = numWord (s.store.op.code + 256 * s.store.op.channel.toNat) := by
  have code := s.store.op.code_le
  show putNum 0 s.store.op.code ||| putBits 8 s.store.op.channel = _
  simp (disch := omega) only [putBits_eq, putNum_zero, numWord_or_putNum, Nat.reducePow]

/-! ### Timers, lines, coefficients -/

theorem TimerState.code_le (x : TimerState) : x.code ≤ 4 := by
  cases x <;> simp [TimerState.code]

theorem Timer.word_zero (t : Timer) : t.word 0 = numWord (t.state.code + 256 * ownerCode t.state.owner) := by
  have code := t.state.code_le
  show putNum 0 t.state.code ||| putNum 8 (ownerCode t.state.owner) = _
  simp (disch := omega) only [putNum_zero, numWord_or_putNum, Nat.reducePow]

theorem EdgeSetting.code_le (x : EdgeSetting) : x.code ≤ 2 := by
  cases x <;> simp [EdgeSetting.code]

theorem Debounce.code_le (x : Debounce) : x.code ≤ 3 := by
  cases x <;> simp [Debounce.code]

theorem Line.word_eq (l : Line) :
    l.word = numWord (l.edge.code + 16 * l.debounce.code + 256 * l.level.toNat + 512 * l.candidate.isSome.toNat) := by
  have edge := l.edge.code_le
  have debounce := l.debounce.code_le
  have level := l.level.toNat_lt
  show putNum 0 l.edge.code ||| putNum 4 l.debounce.code ||| putBool 8 l.level ||| putBool 9 l.candidate.isSome = _
  simp (disch := omega) only [putBool_eq, putNum_zero, numWord_or_putNum, Nat.reducePow]

theorem CommittedSource.code_le (x : CommittedSource) : x.code ≤ 3 := by
  cases x <;> simp [CommittedSource.code]

theorem StoreRecord.code_le (x : StoreRecord) : x.code ≤ 2 := by
  cases x <;> simp [StoreRecord.code]

theorem State.coefficientWord_status (s : State) (ch : Channel) :
    s.coefficientWord ch 2 = numWord ((s.calEntry ch).source.code + 16 * (s.calEntry ch).provisional.isSome.toNat +
      32 * (s.calEntry ch).commitPending.toNat + 256 * (s.fieldRecord ch).code + 1024 * (s.factoryRecord ch).code) := by
  have source := (s.calEntry ch).source.code_le
  have provisional := (s.calEntry ch).provisional.isSome.toNat_lt
  have pending := (s.calEntry ch).commitPending.toNat_lt
  have field := (s.fieldRecord ch).code_le
  show putNum 0 (s.calEntry ch).source.code ||| putBool 4 (s.calEntry ch).provisional.isSome |||
    putBool 5 (s.calEntry ch).commitPending ||| putNum 8 (s.fieldRecord ch).code |||
    putNum 10 (s.factoryRecord ch).code = _
  simp (disch := omega) only [putBool_eq, putNum_zero, numWord_or_putNum, Nat.reducePow]

/-- Settles O14: word by word, as the lemmas above give them; the same at every port, since they speak of no port. -/
theorem sharedViewWords : Obligations.SharedViewWords := by
  intro p s word num bit code opened share
  have hbit : ∀ b, bit b = b.toNat := fun b => by cases b <;> rfl
  have hcode : ∀ q, code q = ownerCode q := fun q => by
    obtain _ | q := q
    · rfl
    · cases q <;> rfl
  have hopened : ∀ q, opened q = ((s.port q).mode == .opened) := fun q => Bool.beq_eq_decide_eq .. |>.symm
  have general : ∀ n, 0xA00 ≤ n → n ≤ 0xA33 → word n = s.sharedWord n := fun n => s.windowWord_shared p
  refine ⟨⟨?_, ?_, ?_, ?_, ?_, ?_, ?_, ?_, ?_, fun n first last => s.windowWord_sharedGap p first last⟩, fun n => ?_,
    fun n => ?_, fun ch => ?_⟩
  · refine (general 0xA00 (by decide) (by decide)).trans ((putNum_zero _).trans ?_)
    cases s.seq.link <;> rfl
  · rw [general 0xA01 (by decide) (by decide), hcode]
    exact s.sharedWord_due
  · exact (general 0xA02 (by decide) (by decide)).trans s.sharedWord_timestampLow
  · exact (general 0xA03 (by decide) (by decide)).trans s.sharedWord_timestampHigh
  · rw [general 0xA04 (by decide) (by decide), hbit, hbit, hbit, hopened, hopened, hopened]
    exact s.sharedWord_open
  · have held : ∀ q, share q = (s.port q).poolHeld := fun q => by
      simp only [share, opened, decide_eq_true_eq]
      rfl
    rw [general 0xA05 (by decide) (by decide), held, held, held]
    rfl
  · rw [general 0xA06 (by decide) (by decide), hcode]
    exact putNum_zero _
  · exact general 0xA07 (by decide) (by decide)
  · refine (general 0xA08 (by decide) (by decide)).trans (s.sharedWord_store.trans ?_)
    cases s.store.op <;> simp [StoreOp.code, StoreOp.channel, numWord, num]
  · intro x row
    have reads : ∀ w, w < 8 → row w = x.word w := fun w hw => s.windowWord_timer p n hw
    refine ⟨?_, reads 1 (by decide), reads 2 (by decide), reads 3 (by decide), reads 4 (by decide), reads 5 (by decide),
      reads 6 (by decide), reads 7 (by decide)⟩
    rw [reads 0 (by decide), Timer.word_zero]
    cases x.state <;> simp only [hcode] <;> rfl
  · intro l
    have candidate : decide (l.candidate ≠ none) = l.candidate.isSome := by cases l.candidate <;> rfl
    rw [hbit, hbit, candidate]
    refine (s.windowWord_line p n).trans ((Line.word_eq l).trans ?_)
    cases l.edge <;> cases l.debounce <;> rfl
  · intro e row status
    have reads : ∀ w, w < 8 → row w = s.coefficientWord ch w := fun w hw => s.windowWord_coefficient p ch hw
    have offset : row 3 = match e.provisional with | some c => c.offset | none => 0 := reads 3 (by decide)
    have gain : row 4 = match e.provisional with | some c => c.gain | none => 0 := reads 4 (by decide)
    refine ⟨reads 0 (by decide), reads 1 (by decide), ?_, fun absent => ⟨?_, ?_⟩, fun c present => ⟨?_, ?_⟩,
      reads 5 (by decide), reads 6 (by decide), reads 7 (by decide)⟩
    · have provisional : decide (e.provisional ≠ none) = e.provisional.isSome := by cases e.provisional <;> rfl
      have source : (match e.source with | .loading => 0 | .default => 1 | .factory => 2 | .field => 3) = e.source.code := by
        cases e.source <;> rfl
      have record : ∀ r, status r = r.code := fun r => by cases r <;> rfl
      rw [reads 2 (by decide), hbit, hbit, provisional, record, record]
      refine (s.coefficientWord_status ch).trans ?_
      rw [← source]
      rfl
    · rw [offset, absent]
    · rw [gain, absent]
    · rw [offset, present]
    · rw [gain, present]

end Sys2Proof.Machine
end

section
/-! SUPPORT. CANCEL by its checks, its mode and the state of the request (R76-R79, R83). -/
namespace Sys2Proof.Machine

/-! ### The mode -/

theorem cancelMode_finish {w : Word} (h : w.toNat = 0) : cancelMode w = some .finish := if_pos h

theorem cancelMode_cut {w : Word} (h : w.toNat = 1) : cancelMode w = some .cut := by
  unfold cancelMode
  rw [if_neg (by omega), if_pos h]

theorem cancelMode_none {w : Word} (h : 1 < w.toNat) : cancelMode w = none := by
  unfold cancelMode
  rw [if_neg (by omega), if_neg (by omega)]

theorem cancelMode_some {w : Word} (h : w.toNat ≤ 1) : ∃ m, cancelMode w = some m := by
  obtain zero | one : w.toNat = 0 ∨ w.toNat = 1 := by omega
  · exact ⟨_, cancelMode_finish zero⟩
  · exact ⟨_, cancelMode_cut one⟩

/-! ### The effect -/

section
variable {s : State} {i : SlotId}

theorem State.takeCancel_idle (h : (s.slot i).state = .idle) (m : CancelMode) : s.takeCancel i m = (s, .notActive) := by
  unfold State.takeCancel
  rw [h]

/-- A posting whose sweep is not under way ends at once (R77). -/
theorem State.takeCancel_waiting
    (h : (s.slot i).state = .armed ∨ (s.slot i).state = .due ∨ (s.slot i).state = .stalled) (m : CancelMode) :
    s.takeCancel i m = (s.endPosting i (some .cancelled), .ok) := by
  unfold State.takeCancel
  obtain armed | due | stalled := h
  · rw [armed]
  · rw [due]
  · rw [stalled]

theorem State.takeCancel_running_finish (h : (s.slot i).state = .running) :
    s.takeCancel i .finish = (s.updSlot i fun x => { x with state := .draining ⟨.cancel, false⟩ }, .ok) := by
  unfold State.takeCancel
  rw [h]

theorem State.takeCancel_running_cut (h : (s.slot i).state = .running) :
    s.takeCancel i .cut =
      ((s.updSlot i fun x => { x with state := .draining ⟨.cancel, true⟩ }).handCut i, .ok) := by
  unfold State.takeCancel
  rw [h]

/-- A drain without a cut takes one, and keeps its cause (R83). -/
theorem State.takeCancel_draining_cut {cause : DrainCause} (h : (s.slot i).state = .draining ⟨cause, false⟩) :
    s.takeCancel i .cut = ((s.updSlot i fun x => { x with state := .draining ⟨cause, true⟩ }).handCut i, .ok) := by
  unfold State.takeCancel
  rw [h]

theorem State.takeCancel_draining_finish {cause : DrainCause} (h : (s.slot i).state = .draining ⟨cause, false⟩) :
    s.takeCancel i .finish = (s, .already) := by
  unfold State.takeCancel
  rw [h]

theorem State.takeCancel_draining_again {cause : DrainCause} (h : (s.slot i).state = .draining ⟨cause, true⟩)
    (m : CancelMode) : s.takeCancel i m = (s, .already) := by
  unfold State.takeCancel
  rw [h]

end

/-! ### The command -/

theorem State.handCut_withCode (s : State) (p : Port) (v : Word) (i : SlotId) :
    (s.withCode p v).handCut i = (s.handCut i).withCode p v := rfl

theorem State.takeCancel_withCode (s : State) (p : Port) (v : Word) (i : SlotId) (m : CancelMode) :
    (s.withCode p v).takeCancel i m = ((s.takeCancel i m).1.withCode p v, (s.takeCancel i m).2) := by
  unfold State.takeCancel
  rw [State.slot_withCode, State.endPosting_withCode]
  split <;> rfl

theorem exec_cancel (p : Port) (s : State) :
    exec (.cancel p) s = .next (s.command p 5 fun s => s.whenOpen p (State.cancel p)) := rfl

/-- A CANCEL for a slot that is not the port's own changes nothing but the answer (R76 check 2). -/
theorem exec_cancel_notOwner {s : State} {p : Port} (ho : s.OpenAtCommand p) (hn : ∀ i, ¬s.NamesOwnSlot p i) :
    exec (.cancel p) s = .next (s.answered p (BitVec.ofNat 16 5) 5 .notOwner) := by
  rw [exec_cancel, State.openCommand_answered ho]
  unfold State.cancel
  rw [State.param_withCode, State.param_zero, ownSlot_none hn]

section
variable {s : State} {p : Port} {i : SlotId} (ho : s.OpenAtCommand p) (hn : s.NamesOwnSlot p i)
include ho hn

/-- A CANCEL with an unassigned mode changes nothing but the answer (R76 check 3). -/
theorem exec_cancel_badField (hm : 1 < (s.port p).params.p1.toNat) :
    exec (.cancel p) s = .next (s.answered p (BitVec.ofNat 16 5) 5 .badField) := by
  rw [exec_cancel, State.openCommand_answered ho]
  unfold State.cancel
  rw [State.param_withCode, State.param_withCode, State.param_zero, State.param_one, ownSlot_of hn]
  dsimp only
  rw [cancelMode_none hm]

/-- A CANCEL of the port's own slot with an assigned mode does and answers what the request's state says. -/
theorem exec_cancel_taken {m : CancelMode} {t : State} {r : ResultCode} (hm : cancelMode (s.port p).params.p1 = some m)
    (ht : s.takeCancel i m = (t, r)) : exec (.cancel p) s = .next (t.answered p (BitVec.ofNat 16 5) 5 r) := by
  rw [exec_cancel, State.openCommand_answered ho]
  unfold State.cancel
  rw [State.param_withCode, State.param_withCode, State.param_zero, State.param_one, ownSlot_of hn]
  dsimp only
  rw [hm]
  dsimp only
  rw [State.takeCancel_withCode, ht]

end

/-- Settles O23: the checks in their order, then the request's state and the mode. -/
theorem cancel : Obligations.Cancel := by
  intro p s ho
  refine ⟨fun hn => ⟨_, exec_cancel_notOwner ho hn⟩, fun i hn => ?_⟩
  intro mode drains handed
  have finish : mode = 0 → cancelMode (s.port p).params.p1 = some .finish := cancelMode_finish
  have cut : mode = 1 → cancelMode (s.port p).params.p1 = some .cut := cancelMode_cut
  have assigned : mode ≤ 1 → ∃ m, cancelMode (s.port p).params.p1 = some m := cancelMode_some
  refine ⟨fun hm => ⟨_, exec_cancel_badField ho hn hm⟩, fun hm idle => ?_, fun hm waiting => ?_, fun running hm => ?_,
    fun running hm => ?_, fun cause => ⟨fun draining hm => ?_, fun draining hm => ?_, fun draining hm => ?_⟩⟩
  · obtain ⟨m, hm⟩ := assigned hm
    exact ⟨_, exec_cancel_taken ho hn hm (State.takeCancel_idle idle m)⟩
  · obtain ⟨m, hm⟩ := assigned hm
    exact ⟨_, exec_cancel_taken ho hn hm (State.takeCancel_waiting waiting m)⟩
  · exact ⟨_, exec_cancel_taken ho hn (finish hm) (State.takeCancel_running_finish running)⟩
  · exact ⟨_, exec_cancel_taken ho hn (cut hm) (State.takeCancel_running_cut running)⟩
  · exact ⟨_, exec_cancel_taken ho hn (cut hm) (State.takeCancel_draining_cut draining)⟩
  · exact ⟨_, exec_cancel_taken ho hn (finish hm) (State.takeCancel_draining_finish draining)⟩
  · obtain ⟨m, hm⟩ := assigned hm
    exact ⟨_, exec_cancel_taken ho hn hm (State.takeCancel_draining_again draining m)⟩

end Sys2Proof.Machine
end

section
/-! SUPPORT. CUT by where the sweep stands, and what a removal of the selected record leads to (R63, R80, R81). -/
namespace Sys2Proof.Machine

/-! ### The current entry (R80) -/

theorem placedSweep_eq_some {b : Option StartedRecord} {r : SweepRecord} :
    placedSweep b = some r ↔ ∃ start, b = some ⟨.sweep r, start⟩ := by
  refine ⟨fun h => ?_, fun ⟨_, h⟩ => h ▸ rfl⟩
  obtain ⟨⟨tag, start⟩, rfl, hr⟩ := Option.bind_eq_some_iff.mp h
  cases tag with
  | sweep r' => exact ⟨start, Option.some.inj hr ▸ rfl⟩
  | flush _ => cases hr
  | dummy _ => cases hr
  | stale => cases hr

/-- The entry of the sweep record of slot `i` in one of the places converting and buffer. -/
def placedEntry (i : SlotId) (b : Option StartedRecord) : Option Nat :=
  ((placedSweep b).filter fun r => r.slot == i).map fun r => r.entry

theorem placedEntry_own {i : SlotId} {r : SweepRecord} (h : r.slot = i) (start : DWord) :
    placedEntry i (some ⟨.sweep r, start⟩) = some r.entry := by
  unfold placedEntry
  rw [placedSweep_eq_some.mpr ⟨start, rfl⟩, Option.filter_some, if_pos (beq_iff_eq.mpr h)]
  rfl

theorem placedEntry_none {i : SlotId} {b : Option StartedRecord}
    (h : ∀ r start, b = some ⟨.sweep r, start⟩ → r.slot ≠ i) : placedEntry i b = none := by
  unfold placedEntry
  rw [Option.map_eq_none_iff, Option.filter_eq_none_iff]
  intro r hr own
  obtain ⟨start, hb⟩ := placedSweep_eq_some.mp hr
  exact h r start hb (beq_iff_eq.mp own)

/-- The converting record's entry goes before the buffer record's (R80). -/
theorem Sequencer.currentEntry_eq (q : Sequencer) (i : SlotId) :
    q.currentEntry i = (placedEntry i q.converting).or (placedEntry i q.buffer) := by
  unfold Sequencer.currentEntry placedEntry
  dsimp only
  cases (placedSweep q.converting).filter fun r => r.slot == i <;> rfl

/-- A sweep with a current entry and nothing converting has its record in the buffer. -/
theorem Sequencer.buffer_of_currentEntry {q : Sequencer} {i : SlotId} {e : Nat} (h : q.currentEntry i = some e)
    (hc : q.converting = none) : ∃ r start, q.buffer = some ⟨.sweep r, start⟩ := by
  refine Classical.byContradiction fun empty => ?_
  have gone : placedEntry i q.buffer = none := placedEntry_none fun r start hb => absurd ⟨r, start, hb⟩ empty
  rw [Sequencer.currentEntry_eq, hc, gone] at h
  cases h

/-! ### The removal of the selected record (R63) -/

theorem Sequencer.bufferHoldsSweep_iff (q : Sequencer) :
    q.bufferHoldsSweep = true ↔ ∃ r start, q.buffer = some ⟨.sweep r, start⟩ := by
  unfold Sequencer.bufferHoldsSweep
  split
  · next r start h => exact iff_of_true rfl ⟨r, start, h⟩
  · next other => exact iff_of_false Bool.false_ne_true fun ⟨r, start, h⟩ => other r start h

theorem Sequencer.cutRemoves_iff (q : Sequencer) (i : SlotId) (current : Option Nat) :
    q.cutRemoves i current = true ↔
      ∃ r, q.selected = some r ∧ r.slot = i ∧ ∀ e, current = some e → e < r.entry := by
  unfold Sequencer.cutRemoves
  rw [Option.any_eq_true]
  refine exists_congr fun r => and_congr_right fun _ => ?_
  rw [Bool.and_eq_true, beq_iff_eq]
  cases current <;> simp

section
variable {s : State} (closing : Option Port)

theorem State.afterRemoval_converting (h : s.seq.converting ≠ none) : s.afterRemoval closing = s := by
  unfold State.afterRemoval
  rw [if_neg fun both => h (Option.isNone_iff_eq_none.mp ((Bool.and_eq_true _ _).mp both).2)]

theorem State.afterRemoval_resting (hs : s.seq.selected = none) (hc : s.seq.converting = none) :
    s.afterRemoval closing = s.flushOrIdle closing := by
  unfold State.afterRemoval
  rw [hs, hc]
  rfl

/-- With nothing selected and nothing converting, a sweep's record in the buffer is flushed (R63). -/
theorem State.afterRemoval_flush (hs : s.seq.selected = none) (hc : s.seq.converting = none)
    (hb : ∃ r start, s.seq.buffer = some ⟨.sweep r, start⟩) : s.afterRemoval closing = s.flushStarted closing := by
  rw [State.afterRemoval_resting closing hs hc, ← State.flush_eq_flushStarted]
  exact if_pos ((Sequencer.bufferHoldsSweep_iff _).mpr hb)

/-- With nothing selected and nothing converting, any other record in the buffer becomes STALE (R63). -/
theorem State.afterRemoval_idle (hs : s.seq.selected = none) (hc : s.seq.converting = none)
    (hb : ¬∃ r start, s.seq.buffer = some ⟨.sweep r, start⟩) : s.afterRemoval closing =
      { s with seq := { s.seq with buffer := s.seq.buffer.map fun b => ⟨.stale, b.startTime⟩ } } := by
  rw [State.afterRemoval_resting closing hs hc]
  exact if_neg fun h => hb ((Sequencer.bufferHoldsSweep_iff _).mp h)

end

/-! ### A cut of a sweep that has not been started -/

/-- The report of a cut leaves the sequencer alone, but for the cuts handed over. -/
theorem State.seq_cutSweep (s : State) (i : SlotId) :
    (s.cutSweep i).seq = { s.seq with cuts := (s.cutSweep i).seq.cuts } := by
  unfold State.cutSweep
  split
  · next d draining =>
    rw [State.seq_endPosting (by rw [draining]; nofun)]
  all_goals rfl

section
variable {s : State} (i : SlotId)

/-- Where the removal starts no FLUSH, nothing is left open but the count of free values. -/
theorem State.cutUnstarted_noFlush (h : s.seq.converting ≠ none ∨ ¬∃ r start, s.seq.buffer = some ⟨.sweep r, start⟩) :
    s.cutUnstarted i =
      (((s.updSeq Sequencer.dropSelected).cutSweep i).afterRemoval none).countFree.countFree := by
  refine if_neg fun flushes => ?_
  rw [Bool.and_eq_true, Bool.and_eq_true, Option.isNone_iff_eq_none, Sequencer.bufferHoldsSweep_iff] at flushes
  obtain ⟨⟨resting, holds⟩, -⟩ := flushes
  exact h.elim (· resting) (· holds)

/-- Where the removal starts a FLUSH, the FLUSH and the report of the cut come in either order, and a report that waits may be
taken between them (notes/assumptions/6.md). -/
theorem State.cutUnstarted_flush (hc : s.seq.converting = none) (hb : ∃ r start, s.seq.buffer = some ⟨.sweep r, start⟩) :
    ∃ u, s.cutUnstarted i = u.countFree.countFree ∧
      (u = ((s.updSeq Sequencer.dropSelected).cutSweep i).flushStarted none ∨
        u = ((s.updSeq Sequencer.dropSelected).flushStarted none).cutSweep i ∨
        u = (((s.updSeq Sequencer.dropSelected).flushStarted none).takeReports fun _ => true).cutSweep i) := by
  have kept := (s.updSeq Sequencer.dropSelected).seq_cutSweep i
  have flushFirst : (s.updSeq Sequencer.dropSelected).afterRemoval none = _ := State.afterRemoval_flush none rfl hc hb
  have reportFirst : ((s.updSeq Sequencer.dropSelected).cutSweep i).afterRemoval none = _ :=
    State.afterRemoval_flush none (by rw [kept]; rfl) (by rw [kept]; exact hc) (by rw [kept]; exact hb)
  unfold State.cutUnstarted
  dsimp only
  rw [flushFirst]
  split
  · split
    · exact ⟨_, rfl, .inr (.inr rfl)⟩
    · exact ⟨_, rfl, .inr (.inl rfl)⟩
  · exact ⟨_, rfl, .inl reportFirst⟩

end

/-! ### The taking of a cut -/

section
variable {s : State} {i : SlotId}

theorem State.takeCut_gone (hs : ∀ r, s.seq.selected = some r → r.slot ≠ i) (hc : s.seq.currentEntry i = none) :
    s.takeCut i = s.forgetCut i := by
  have keeps : ¬(s.forgetCut i).seq.cutRemoves i none = true := fun h => by
    obtain ⟨r, selected, own, -⟩ := (Sequencer.cutRemoves_iff _ i none).mp h
    exact hs r selected own
  have current : (s.forgetCut i).seq.currentEntry i = none := hc
  unfold State.takeCut
  dsimp only
  rw [current]
  exact if_neg keeps

theorem State.takeCut_unstarted {r : SweepRecord} (hs : s.seq.selected = some r) (hr : r.slot = i)
    (hc : s.seq.currentEntry i = none) : s.takeCut i = (s.forgetCut i).cutUnstarted i := by
  have removes : (s.forgetCut i).seq.cutRemoves i none = true :=
    (Sequencer.cutRemoves_iff _ i none).mpr ⟨r, hs, hr, nofun⟩
  have current : (s.forgetCut i).seq.currentEntry i = none := hc
  unfold State.takeCut
  dsimp only
  rw [current]
  exact if_pos removes

theorem State.takeCut_current {e : Nat} (hc : s.seq.currentEntry i = some e) : s.takeCut i =
    if e + 1 = (s.slot i).fields.scanLength.toNat then s.forgetCut i else (s.forgetCut i).cutAfter i e := by
  have current : (s.forgetCut i).seq.currentEntry i = some e := hc
  unfold State.takeCut
  dsimp only
  rw [current]
  rfl

/-- A truncation that finds no selected record of a later entry removes none (R80). -/
theorem State.cutAfter_keeps {e : Nat} (hs : ∀ r, s.seq.selected = some r → r.slot ≠ i ∨ r.entry ≤ e) :
    s.cutAfter i e = s.updSlot i fun x => { x with truncatedAt := some e } := by
  refine if_neg fun h => ?_
  obtain ⟨r, selected, own, later⟩ := (Sequencer.cutRemoves_iff _ i _).mp h
  have past : e < r.entry := later e rfl
  exact (hs r selected).elim (· own) fun early => absurd past (Nat.not_lt.mpr early)

/-- A truncation removes the selected record of a later entry of the sweep (R80). -/
theorem State.cutAfter_removes {e : Nat} {r : SweepRecord} (hs : s.seq.selected = some r) (hr : r.slot = i)
    (later : e < r.entry) : s.cutAfter i e = ((s.updSlot i fun x => { x with truncatedAt := some e }).updSeq
      Sequencer.dropSelected).afterRemoval none :=
  if_pos ((Sequencer.cutRemoves_iff _ i _).mpr ⟨r, hs, hr, fun _ h => Option.some.inj h ▸ later⟩)

end

theorem exec_cut (i : SlotId) (s : State) : exec (.cut i) s = .next (s.cut i) := rfl

theorem exec_cut_notHanded {s : State} {i : SlotId} (h : i ∉ s.seq.cuts) : exec (.cut i) s = .next s := by
  rw [exec_cut]
  exact congrArg _ (if_neg h)

theorem exec_cut_handed {s : State} {i : SlotId} (h : i ∈ s.seq.cuts) : exec (.cut i) s = .next (s.takeCut i) := by
  rw [exec_cut]
  exact congrArg _ (if_pos h)

/-- Settles O52: the two places of the current entry, then the cut by where the sweep stands and what its removal finds
converting and in the buffer. -/
theorem cutTaken : Obligations.CutTaken := by
  refine ⟨fun i q => ⟨fun r start hc own => ?_, fun elsewhere => ⟨fun r start hb own => ?_, fun other => ?_⟩⟩,
    fun i s => ⟨exec_cut_notHanded, fun handed => ?_⟩⟩
  · rw [q.currentEntry_eq, hc, placedEntry_own own]
    rfl
  · rw [q.currentEntry_eq, placedEntry_none elsewhere, hb, placedEntry_own own]
    rfl
  · rw [q.currentEntry_eq, placedEntry_none elsewhere, placedEntry_none other]
    rfl
  intro taken dropped idle truncated reported waits current last
  rw [exec_cut_handed handed]
  have early : ∀ e, current = some e → e + 1 ≠ last → s.takeCut i = taken.cutAfter i e := fun e hc more =>
    (State.takeCut_current hc).trans (if_neg more)
  refine ⟨fun gone hc => ?_, fun r hs own hc => ?_, fun e hc final => ?_, fun e hc more stays => ?_,
    fun e r hc more hs own later => ?_⟩
  · rw [State.takeCut_gone gone hc]
    rfl
  · rw [State.takeCut_unstarted hs own hc]
    have kept : (reported (dropped taken)).seq = _ := State.seq_cutSweep (dropped taken) i
    by_cases resting : s.seq.converting = none
    · by_cases holds : waits
      · obtain ⟨u, cut, order⟩ := State.cutUnstarted_flush (s := taken) i resting holds
        exact ⟨u, _, congrArg _ cut, fun h => absurd resting h, fun _ h => absurd holds h, fun _ _ => order⟩
      · have cut := State.cutUnstarted_noFlush (s := taken) i (.inr holds)
        refine ⟨(reported (dropped taken)).afterRemoval none, _, congrArg _ cut, fun h => absurd resting h, fun _ _ => ?_,
          fun _ h => absurd h holds⟩
        exact State.afterRemoval_idle none (by rw [kept]) (by rw [kept]; exact resting) (by rw [kept]; exact holds)
    · have cut := State.cutUnstarted_noFlush (s := taken) i (.inl resting)
      refine ⟨(reported (dropped taken)).afterRemoval none, _, congrArg _ cut, fun _ => ?_, fun h => absurd h resting,
        fun h => absurd h resting⟩
      exact State.afterRemoval_converting none (by rw [kept]; exact resting)
  · exact congrArg _ ((State.takeCut_current hc).trans (if_pos final))
  · exact congrArg _ ((early e hc more).trans (State.cutAfter_keeps stays))
  · rw [early e hc more, State.cutAfter_removes (s := taken) hs own later]
    refine ⟨fun converting => congrArg _ (State.afterRemoval_converting none converting), fun resting => ?_⟩
    exact congrArg _ (State.afterRemoval_flush none rfl resting (Sequencer.buffer_of_currentEntry hc resting))

end Sys2Proof.Machine
end

section
/-! SUPPORT. The calibrated value and the copies of a sample that carry it (R93, R94). -/
namespace Sys2Proof.Machine

/-! ### The rounded quotient (R93) -/

/-- The quotient is off by at most half a unit, and by half only away from zero. -/
theorem roundedQuotient_error (a offset : Int) (gain : Nat) :
    let product := (a - offset) * (gain : Int)
    let error := 16384 * roundedQuotient a offset gain - product
    (-8192 ≤ error ∧ error ≤ 8192) ∧ (0 ≤ product → error ≠ -8192) ∧ (product < 0 → error ≠ 8192) := by
  intro product error
  obtain sign | sign := Int.lt_or_le product 0
  · have value : roundedQuotient a offset gain = -((product.natAbs + 8192) / 16384 : Nat) := if_pos sign
    omega
  · have value : roundedQuotient a offset gain = ((product.natAbs + 8192) / 16384 : Nat) := if_neg (by omega)
    omega

/-- A multiple within half a unit of `product` is the nearest one. -/
theorem nearest_of_half {product v : Int} (below : -8192 ≤ 16384 * v - product) (above : 16384 * v - product ≤ 8192)
    (k : Int) : (16384 * v - product).natAbs ≤ (16384 * k - product).natAbs := by
  obtain lower | same | higher := Int.lt_trichotomy k v
  · omega
  · exact Nat.le_of_eq (by rw [same])
  · omega

/-- Of two nearest integers, the quotient is the one with the larger magnitude. -/
theorem roundedQuotient_tie {a offset : Int} {gain : Nat} {k : Int} (other : k ≠ roundedQuotient a offset gain)
    (tie : (16384 * roundedQuotient a offset gain - (a - offset) * (gain : Int)).natAbs =
      (16384 * k - (a - offset) * (gain : Int)).natAbs) : k.natAbs < (roundedQuotient a offset gain).natAbs := by
  obtain ⟨half, positive, negative⟩ := roundedQuotient_error a offset gain
  generalize (a - offset) * (gain : Int) = product at half positive negative tie
  obtain sign | sign := Int.lt_or_le product 0
  · have := negative sign
    omega
  · have := positive sign
    omega

/-- Settles O32: the rounded quotient is the integer, and the calibrated value clamps it. -/
theorem calibratedValue : Obligations.CalibratedValue := by
  intro a c
  obtain ⟨⟨below, above⟩, -⟩ := roundedQuotient_error a c.offset.toInt c.gain.toNat
  exact ⟨roundedQuotient a c.offset.toInt c.gain.toNat, nearest_of_half below above, fun k => roundedQuotient_tie, rfl⟩

/-! ### The copies of a sample (R94) -/

section
variable {s : State} {x : Sample}

theorem State.copyValue_raw (p : Port) (raw : (s.slot x.slot).fields.raw = true) :
    s.copyValue p x = ((x.average, false), .raw) := if_pos raw

theorem State.copyValue_provisional {p : Port} {c : Coefficients} (raw : (s.slot x.slot).fields.raw = false)
    (provisional : (s.calEntry x.channel).provisional = some c) (holds : s.HoldsLease p) :
    s.copyValue p x = (calibrated x.average c, .provisional) := by
  unfold State.copyValue
  dsimp only
  rw [raw, provisional]
  exact if_pos holds

/-- Without a provisional part, or without the lease, a copy carries the committed value and source. -/
theorem State.copyValue_committed {p : Port} (raw : (s.slot x.slot).fields.raw = false)
    (committed : (s.calEntry x.channel).provisional = none ∨ ¬s.HoldsLease p) :
    s.copyValue p x = (calibrated x.average (s.calEntry x.channel).committed, (s.calEntry x.channel).source.flag) := by
  unfold State.copyValue
  dsimp only
  rw [raw]
  cases provisional : (s.calEntry x.channel).provisional with
  | none => rfl
  | some c =>
    have other : ¬s.HoldsLease p := committed.resolve_left fun none => by rw [none] at provisional; cases provisional
    exact if_neg other

end

/-- Settles O33: the three rows of R94 in their order, and the items that do not depend on them. -/
theorem copyChoosesCoefficients : Obligations.CopyChoosesCoefficients := by
  intro p shared x s e r carries
  have carried : ∀ {v c}, s.copyValue p x = (v, c) → carries v c := by
    intro v c h
    show BitVec.ofInt 16 (s.copyValue p x).1.1 = _ ∧ (s.copyValue p x).1.2 = _ ∧ (s.copyValue p x).2 = _
    rw [h]
    exact ⟨rfl, rfl, rfl⟩
  refine ⟨fun raw => carried (State.copyValue_raw p raw), fun raw => ⟨fun c provisional holds => ?_, fun committed => ?_⟩,
    rfl, rfl, rfl, rfl, rfl, rfl, rfl, rfl, rfl, rfl⟩
  · exact carried (State.copyValue_provisional raw provisional holds)
  · have value := State.copyValue_committed raw committed
    have flagged : ∀ source, e.source = source → carries (calibrated x.average e.committed) source.flag :=
      fun _ h => h ▸ carried value
    exact ⟨flagged .loading, flagged .default, flagged .factory, flagged .field⟩

end Sys2Proof.Machine
end

section
/-! SUPPORT. The commands of the Calibration Unit: how a lease command is answered and renews the lease (R98), LEASE,
END_LEASE and LEASE_EXPIRY (R97-R100). -/
namespace Sys2Proof.Machine

/-! ### Lease commands (R98) -/

/-- The work of a command does the same whatever the command word of port `p` holds, and leaves that word. -/
def IgnoresCode (p : Port) (body : State → State × ResultCode) : Prop :=
  ∀ s v, body (s.withCode p v) = ((body s).1.withCode p v, (body s).2)

/-- `c` is the command with the code `k` by which port `p` has `body` done as a lease command. -/
structure IsLeaseCommand (p : Port) (k : Nat) (c : Instr) (body : State → State × ResultCode) : Prop where
  exec_eq : ∀ s, exec c s = .next (s.command p k fun s => s.whenOpen p (State.leaseCommand p body))
  ignoresCode : IgnoresCode p body

section
variable {s t : State} {p : Port} {k : Nat} {c : Instr} {body : State → State × ResultCode} {r : ResultCode}

theorem State.leaseCommand_holder (holds : s.HoldsLease p) (done : body s = (t, r)) :
    s.leaseCommand p body = (t.renewed, r) := by
  unfold State.leaseCommand
  rw [done]
  exact congrArg (·, r) (if_pos holds)

theorem State.leaseCommand_other (other : ¬s.HoldsLease p) (done : body s = (t, r)) :
    s.leaseCommand p body = (t, r) := by
  unfold State.leaseCommand
  rw [done]
  exact congrArg (·, r) (if_neg other)

theorem IgnoresCode.leaseCommand (h : IgnoresCode p body) : IgnoresCode p (State.leaseCommand p body) := by
  intro s v
  unfold State.leaseCommand
  rw [h, State.cal_withCode]
  split <;> rfl

/-- A command of an OPEN port whose work ignores the command word is answered by what it does to the state. -/
theorem IgnoresCode.answered (h : IgnoresCode p body) (ho : s.OpenAtCommand p) (done : body s = (t, r)) :
    (s.command p k fun s => s.whenOpen p body) = t.answered p (BitVec.ofNat 16 k) k r :=
  State.openCommand_answered ho (by rw [h, done])

/-- A lease command renews the lease of its holder, whatever the answer. -/
theorem IsLeaseCommand.exec_holder (h : IsLeaseCommand p k c body) (ho : s.OpenAtCommand p) (holds : s.HoldsLease p)
    (done : body s = (t, r)) : ∃ w, exec c s = .next (t.renewed.answered p w k r) :=
  ⟨_, (h.exec_eq s).trans
    (congrArg _ (h.ignoresCode.leaseCommand.answered ho (State.leaseCommand_holder holds done)))⟩

theorem IsLeaseCommand.exec_other (h : IsLeaseCommand p k c body) (ho : s.OpenAtCommand p) (other : ¬s.HoldsLease p)
    (done : body s = (t, r)) : ∃ w, exec c s = .next (t.answered p w k r) :=
  ⟨_, (h.exec_eq s).trans
    (congrArg _ (h.ignoresCode.leaseCommand.answered ho (State.leaseCommand_other other done)))⟩

/-- A lease command that is refused before the lease is looked at renews it all the same. -/
theorem IsLeaseCommand.exec_refused (h : IsLeaseCommand p k c body) (ho : s.OpenAtCommand p) (done : body s = (s, r)) :
    ∃ w, exec c s = .next ((if s.cal.lease.holder = some p then s.renewed else s).answered p w k r) := by
  by_cases holds : s.cal.lease.holder = some p
  · rw [if_pos holds]
    exact h.exec_holder ho holds done
  · rw [if_neg holds]
    exact h.exec_other ho holds done

end

/-! ### LEASE (R97) -/

section
variable {s : State} {p : Port}

theorem State.takeLease_badField (range : (s.port p).params.p0.toNat < 1 ∨ 255 < (s.port p).params.p0.toNat) :
    s.takeLease p = (s, .badField) :=
  if_pos (by rw [State.param_zero]; omega)

theorem State.takeLease_ok (low : 1 ≤ (s.port p).params.p0.toNat) (high : (s.port p).params.p0.toNat ≤ 255)
    (free : s.cal.lease.holder = none ∨ s.HoldsLease p) : s.takeLease p =
      (s.updLease fun _ => ⟨some p, (s.port p).params.p0.toNat, (s.port p).params.p0.toNat * 100000⟩, .ok) :=
  (if_neg (not_not_intro ⟨low, high⟩)).trans (if_pos free)

theorem State.takeLease_held (low : 1 ≤ (s.port p).params.p0.toNat) (high : (s.port p).params.p0.toNat ≤ 255)
    (taken : ¬(s.cal.lease.holder = none ∨ s.HoldsLease p)) : s.takeLease p = (s, .leaseHeld) :=
  (if_neg (not_not_intro ⟨low, high⟩)).trans (if_neg taken)

end

theorem isLeaseCommand_lease (p : Port) : IsLeaseCommand p 16 (.lease p) (State.takeLease p) where
  exec_eq _ := rfl
  ignoresCode s v := by
    unfold State.takeLease
    rw [State.param_withCode, State.cal_withCode]
    dsimp only
    split
    · rfl
    · split <;> rfl

/-! ### END_LEASE and LEASE_EXPIRY (R99, R100) -/

theorem State.discardProvisional_withCode (s : State) (p : Port) (v : Word) :
    (s.withCode p v).discardProvisional = s.discardProvisional.withCode p v :=
  State.foldl_withCode (fun _ _ => rfl) _ s

theorem State.dropLease_withCode (s : State) (p : Port) (v : Word) :
    (s.withCode p v).dropLease = s.dropLease.withCode p v := by
  unfold State.dropLease
  rw [State.discardProvisional_withCode]
  rfl

theorem endLease_ignoresCode (p : Port) : IgnoresCode p (State.endLease p) := by
  intro s v
  unfold State.endLease
  rw [State.cal_withCode, State.dropLease_withCode]
  split <;> rfl

theorem exec_endLease (p : Port) (s : State) :
    exec (.endLease p) s = .next (s.command p 17 fun s => s.whenOpen p (State.endLease p)) := rfl

theorem exec_leaseExpiry (s : State) : exec .leaseExpiry s = .next s.leaseExpiry := rfl

theorem State.leaseExpiry_notDue {s : State} (h : s.cal.lease.holder = none ∨ s.cal.lease.remaining ≠ 0) :
    s.leaseExpiry = s := by
  refine if_neg fun due => ?_
  obtain ⟨held, zero⟩ := Bool.and_eq_true_iff.mp due
  obtain free | remaining := h
  · rw [free] at held
    cases held
  · exact remaining (beq_iff_eq.mp zero)

theorem State.leaseExpiry_due {s : State} {p : Port} (holds : s.HoldsLease p) (zero : s.cal.lease.remaining = 0) :
    s.leaseExpiry = (s.discardProvisional.updLease fun l => { l with holder := none }).raise p .leaseLost := by
  have held : s.cal.lease.holder = some p := holds
  have due : s.cal.lease.expiryDue = true := by simp [Lease.expiryDue, held, zero]
  unfold State.leaseExpiry
  rw [if_pos due, held]

/-- Settles O39: LEASE by its checks, END_LEASE by who holds the lease, LEASE_EXPIRY by whether it is due. -/
theorem leaseBeginsAndEnds : Obligations.LeaseBeginsAndEnds := by
  refine ⟨fun p s ho => ?_, fun p s ho => ⟨fun other => ?_, fun holds => ?_⟩,
    fun s => ⟨fun notDue => ?_, fun p holds zero => ?_⟩⟩
  · intro d
    have isLease := isLeaseCommand_lease p
    refine ⟨fun range => ⟨fun holds => ?_, fun other => ?_⟩, fun low high free => ?_, fun low high held => ?_⟩
    · exact isLease.exec_holder ho holds (State.takeLease_badField range)
    · exact isLease.exec_other ho other (State.takeLease_badField range)
    · have taken := State.takeLease_ok low high free
      by_cases holds : s.HoldsLease p
      · exact isLease.exec_holder ho holds taken
      · exact isLease.exec_other ho holds taken
    · obtain ⟨q, different, holds⟩ := held
      have holder : s.cal.lease.holder = some q := holds
      have other : ¬s.HoldsLease p := fun own => different (Option.some.inj (holder.symm.trans own))
      have taken : ¬(s.cal.lease.holder = none ∨ s.HoldsLease p) := fun free =>
        other (free.resolve_left fun none => nomatch holder.symm.trans none)
      exact isLease.exec_other ho other (State.takeLease_held low high taken)
  · exact ⟨_, congrArg _ ((endLease_ignoresCode p).answered ho (if_neg other))⟩
  · obtain ⟨table, remaining, dropped, -, discarded⟩ := s.dropLease_eq
    have ended : s.endLease p = (s.dropLease, .ok) := if_pos holds
    rw [dropped] at ended
    exact ⟨_, table, remaining, _, congrArg _ ((endLease_ignoresCode p).answered ho ended), discarded⟩
  · rw [exec_leaseExpiry, State.leaseExpiry_notDue notDue]
  · obtain ⟨table, dropped, discarded⟩ := s.discardProvisional_eq
    refine ⟨table, ?_, discarded⟩
    rw [exec_leaseExpiry, State.leaseExpiry_due holds zero, dropped]
    rfl

end Sys2Proof.Machine
end

section
/-! SUPPORT. The lease commands that name a channel: SET_PROVISIONAL and DROP_PROVISIONAL (R101, R102), COMMIT,
BURN_FACTORY and RELOAD (R103-R106, R111, R112). -/
namespace Sys2Proof.Machine

/-! ### The channel and the lease -/

theorem channelNumber_none {w : Word} (h : 31 < w.toNat) : channelNumber w = none := if_neg (by omega)

section
variable {s : State} {p : Port} {ch : Channel} {work : Channel → State → State × ResultCode}

theorem State.withChannel_badField (high : 31 < (s.port p).params.p0.toNat) :
    s.withChannel p work = (s, .badField) := by
  unfold State.withChannel
  rw [State.param_zero, channelNumber_none high]

theorem State.withChannel_noLease (hn : s.NamesChannel p ch) (other : ¬s.HoldsLease p) :
    s.withChannel p work = (s, .noLease) := by
  unfold State.withChannel
  rw [State.param_zero, channelNumber_of hn]
  exact if_neg other

theorem State.withChannel_holder (hn : s.NamesChannel p ch) (holds : s.HoldsLease p) :
    s.withChannel p work = work ch s := by
  unfold State.withChannel
  rw [State.param_zero, channelNumber_of hn]
  exact if_pos holds

theorem IgnoresCode.withChannel (h : ∀ ch, IgnoresCode p (work ch)) : IgnoresCode p (State.withChannel p work) := by
  intro s v
  unfold State.withChannel
  rw [State.param_withCode, State.cal_withCode]
  split
  · rfl
  · next ch _ =>
    split
    · exact h ch s v
    · rfl

end

/-! ### SET_PROVISIONAL and DROP_PROVISIONAL (R101, R102) -/

theorem isLeaseCommand_setProvisional (p : Port) :
    IsLeaseCommand p 18 (.setProvisional p) (State.setProvisional p) where
  exec_eq _ := rfl
  ignoresCode s v := by
    unfold State.setProvisional
    simp only [State.param_withCode, State.cal_withCode]
    split
    · rfl
    · split
      · rfl
      · split <;> rfl

theorem isLeaseCommand_dropProvisional (p : Port) :
    IsLeaseCommand p 19 (.dropProvisional p) (State.dropProvisional p) where
  exec_eq _ := rfl
  ignoresCode := IgnoresCode.withChannel fun ch s v => by
    rw [State.calEntry_withCode]
    split <;> rfl

section
variable {s : State} {p : Port} {ch : Channel}

theorem State.setProvisional_badField
    (bad : 31 < (s.port p).params.p0.toNat ∨ (s.port p).params.p2 = 0) : s.setProvisional p = (s, .badField) := by
  unfold State.setProvisional
  rw [State.param_zero, State.param_two]
  split
  · rfl
  · next ch named =>
    refine if_pos (bad.resolve_left fun high => ?_)
    rw [channelNumber_none high] at named
    cases named

theorem State.setProvisional_noLease (hn : s.NamesChannel p ch) (gain : (s.port p).params.p2 ≠ 0)
    (other : ¬s.HoldsLease p) : s.setProvisional p = (s, .noLease) := by
  unfold State.setProvisional
  rw [State.param_zero, State.param_two, channelNumber_of hn]
  exact (if_neg gain).trans (if_pos other)

theorem State.setProvisional_ok (hn : s.NamesChannel p ch) (gain : (s.port p).params.p2 ≠ 0) (holds : s.HoldsLease p) :
    s.setProvisional p = (s.updCalEntry ch fun e =>
      { e with provisional := some ⟨(s.port p).params.p1, (s.port p).params.p2⟩ }, .ok) := by
  unfold State.setProvisional
  rw [State.param_zero, State.param_two, channelNumber_of hn]
  exact (if_neg gain).trans (if_neg (not_not_intro holds))

theorem State.dropProvisional_notActive (hn : s.NamesChannel p ch) (holds : s.HoldsLease p)
    (absent : (s.calEntry ch).provisional = none) : s.dropProvisional p = (s, .notActive) :=
  (State.withChannel_holder hn holds).trans (if_pos (by rw [absent]; rfl))

theorem State.dropProvisional_ok (hn : s.NamesChannel p ch) (holds : s.HoldsLease p)
    (present : (s.calEntry ch).provisional ≠ none) :
    s.dropProvisional p = (s.updCalEntry ch fun e => { e with provisional := none }, .ok) :=
  (State.withChannel_holder hn holds).trans (if_neg fun absent => present (Option.isNone_iff_eq_none.mp absent))

end

/-- Settles O40: each command by its checks in order. -/
theorem provisionalCoefficients : Obligations.ProvisionalCoefficients := by
  intro p s ho held
  have isSet := isLeaseCommand_setProvisional p
  have isDrop := isLeaseCommand_dropProvisional p
  refine ⟨fun bad => isSet.exec_refused ho (State.setProvisional_badField bad),
    fun high => isDrop.exec_refused ho (State.withChannel_badField high), fun ch hn => ⟨fun gain other => ?_,
    fun gain holds => ?_, fun other => ?_, fun holds absent => ?_, fun holds present => ?_⟩⟩
  · exact isSet.exec_other ho other (State.setProvisional_noLease hn gain other)
  · exact isSet.exec_holder ho holds (State.setProvisional_ok hn gain holds)
  · exact isDrop.exec_other ho other (State.withChannel_noLease hn other)
  · exact isDrop.exec_holder ho holds (State.dropProvisional_notActive hn holds absent)
  · exact isDrop.exec_holder ho holds (State.dropProvisional_ok hn holds present)

/-! ### COMMIT, BURN_FACTORY and RELOAD (R104-R106) -/

theorem State.fillCommit_withCode (s : State) (p q : Port) (v : Word) (k : CommitKind) (ch : Channel) :
    (s.withCode p v).fillCommit k ch q = (s.fillCommit k ch q).withCode p v := rfl

theorem State.updCalEntry_withCode (s : State) (p : Port) (v : Word) (ch : Channel) (f : CalEntry → CalEntry) :
    (s.withCode p v).updCalEntry ch f = (s.updCalEntry ch f).withCode p v := rfl

theorem isLeaseCommand_commit (p : Port) : IsLeaseCommand p 20 (.commit p) (State.commit p) where
  exec_eq _ := rfl
  ignoresCode := IgnoresCode.withChannel fun ch s v => by
    dsimp only
    rw [State.calEntry_withCode, State.store_withCode]
    split
    · rfl
    · split
      · rfl
      · rw [State.fillCommit_withCode, State.updCalEntry_withCode]
        rfl

theorem isLeaseCommand_burnFactory (p : Port) : IsLeaseCommand p 21 (.burnFactory p) (State.burnFactory p) where
  exec_eq _ := rfl
  ignoresCode := IgnoresCode.withChannel fun ch s v => by
    dsimp only
    rw [State.calEntry_withCode, State.factoryRecord_withCode, State.store_withCode]
    split
    · rfl
    · split
      · rfl
      · split <;> rfl

theorem isLeaseCommand_reload (p : Port) : IsLeaseCommand p 22 (.reload p) (State.reload p) where
  exec_eq _ := rfl
  ignoresCode := IgnoresCode.withChannel fun ch s v => by
    dsimp only
    rw [State.store_withCode]
    split <;> rfl

/-- The reading time of a channel is 2.5 ms for a VALID field record, else 5 ms (R112, R114). -/
theorem State.readingTime_eq (s : State) (ch : Channel) : s.readingTime ch =
    match s.fieldRecord ch with | .valid _ => 2500 | .unwritten => 5000 | .invalid => 5000 := by
  unfold State.readingTime
  cases s.fieldRecord ch <;> rfl

section
variable {s : State} {p : Port} {ch : Channel} (hn : s.NamesChannel p ch) (holds : s.HoldsLease p)
include hn holds

theorem State.commit_notActive (absent : (s.calEntry ch).provisional = none) : s.commit p = (s, .notActive) := by
  refine (State.withChannel_holder hn holds).trans ?_
  dsimp only
  rw [absent]

theorem State.burnFactory_notActive (absent : (s.calEntry ch).provisional = none) :
    s.burnFactory p = (s, .notActive) := by
  refine (State.withChannel_holder hn holds).trans ?_
  dsimp only
  rw [absent]

theorem State.commit_active {c : Coefficients} (present : (s.calEntry ch).provisional = some c) : s.commit p =
    if s.store.op ≠ .idle then (s, .busy)
    else ((((s.fillCommit (.commit c) ch p).updCalEntry ch fun e =>
      { e with commitPending := true }).setFieldRecord ch .invalid).startStore (.writingField ch c) 5000, .accepted) := by
  refine (State.withChannel_holder hn holds).trans ?_
  dsimp only
  rw [present]
  rfl

theorem State.burnFactory_active {c : Coefficients} (present : (s.calEntry ch).provisional = some c) :
    s.burnFactory p = if s.factoryRecord ch ≠ .unwritten then (s, .locked) else if s.store.op ≠ .idle then (s, .busy)
      else (((s.fillCommit (.burnFactory c) ch p).setFactoryRecord ch .invalid).startStore (.writingFactory ch c) 5000,
        .accepted) := by
  refine (State.withChannel_holder hn holds).trans ?_
  dsimp only
  rw [present]
  rfl

theorem State.reload_busy (busy : s.store.op ≠ .idle) : s.reload p = (s, .busy) :=
  (State.withChannel_holder hn holds).trans (if_pos busy)

theorem State.reload_accepted (idle : s.store.op = .idle) : s.reload p =
    (((s.updCalEntry ch fun e => { e with provisional := none }).fillCommit .reload ch p).startStore (.reading ch)
      (s.readingTime ch), .accepted) :=
  (State.withChannel_holder hn holds).trans (if_neg (not_not_intro idle))

end

/-- Each of the three is a lease command that checks the channel and the lease first. -/
theorem storeCommand_withChannel {p : Port} {k : Nat} {c : Instr}
    (h : (k, c) ∈ [(20, Instr.commit p), (21, .burnFactory p), (22, .reload p)]) :
    ∃ work, IsLeaseCommand p k c (State.withChannel p work) := by
  simp only [List.mem_cons, Prod.mk.injEq, List.not_mem_nil, or_false] at h
  obtain ⟨rfl, rfl⟩ | ⟨rfl, rfl⟩ | ⟨rfl, rfl⟩ := h
  · exact ⟨_, isLeaseCommand_commit p⟩
  · exact ⟨_, isLeaseCommand_burnFactory p⟩
  · exact ⟨_, isLeaseCommand_reload p⟩

/-- Settles O41: the checks that the three share, then those of each. -/
theorem storeCommandsRefused : Obligations.StoreCommandsRefused := by
  intro p s ho held three
  have isCommit := isLeaseCommand_commit p
  have isBurn := isLeaseCommand_burnFactory p
  refine ⟨fun k c mem high => ?_, fun ch hn => ⟨fun k c mem other => ?_, fun k c mem notReload holds absent => ?_,
    fun holds present written => ?_, fun holds present busy => ?_, fun holds busy => ?_⟩⟩
  · obtain ⟨work, isStore⟩ := storeCommand_withChannel mem
    exact isStore.exec_refused ho (State.withChannel_badField high)
  · obtain ⟨work, isStore⟩ := storeCommand_withChannel mem
    exact isStore.exec_other ho other (State.withChannel_noLease hn other)
  · simp only [three, List.mem_cons, Prod.mk.injEq, List.not_mem_nil, or_false] at mem
    obtain ⟨rfl, rfl⟩ | ⟨rfl, rfl⟩ | ⟨rfl, rfl⟩ := mem
    · exact isCommit.exec_holder ho holds (State.commit_notActive hn holds absent)
    · exact isBurn.exec_holder ho holds (State.burnFactory_notActive hn holds absent)
    · exact absurd rfl notReload
  · obtain ⟨c, present⟩ := Option.ne_none_iff_exists'.mp present
    exact isBurn.exec_holder ho holds ((State.burnFactory_active hn holds present).trans (if_pos written))
  · obtain ⟨c, present⟩ := Option.ne_none_iff_exists'.mp present
    refine ⟨?_, fun unwritten => ?_⟩
    · exact isCommit.exec_holder ho holds ((State.commit_active hn holds present).trans (if_pos busy))
    · exact isBurn.exec_holder ho holds ((State.burnFactory_active hn holds present).trans
        ((if_neg (not_not_intro unwritten)).trans (if_pos busy)))
  · exact (isLeaseCommand_reload p).exec_holder ho holds (State.reload_busy hn holds busy)

/-- Settles O42: with every check passed, the work of each, whose parts the renewal of the lease leaves alone. -/
theorem storeCommandsAccepted : Obligations.StoreCommandsAccepted := by
  intro p ch s ho hn holds idle begins
  have free : ¬s.store.op ≠ .idle := not_not_intro idle
  refine ⟨fun c present => ⟨?_, fun unwritten => ?_⟩, ?_⟩
  · exact (isLeaseCommand_commit p).exec_holder ho holds ((State.commit_active hn holds present).trans (if_neg free))
  · exact (isLeaseCommand_burnFactory p).exec_holder ho holds ((State.burnFactory_active hn holds present).trans
      ((if_neg (not_not_intro unwritten)).trans (if_neg free)))
  · have accepted := State.reload_accepted hn holds idle
    rw [State.readingTime_eq] at accepted
    exact (isLeaseCommand_reload p).exec_holder ho holds accepted

end Sys2Proof.Machine
end

section
/-! SUPPORT. The ends of the store's operations: STORE_WRITE_END, STORE_READ_END and LOAD_CHANNEL_END (R104-R106, R111,
R112, R114, R115). -/
namespace Sys2Proof.Machine

theorem State.updCalEntry_id (s : State) (ch : Channel) {f : CalEntry → CalEntry}
    (h : f (s.calEntry ch) = s.calEntry ch) : s.updCalEntry ch f = s := by
  have same : tupd s.cal.table (channelIndex ch) f = s.cal.table := Vector.ext_tget fun i => by
    rw [tget_tupd]
    split
    · next at_ch => subst at_ch; exact h
    · rfl
  unfold State.updCalEntry
  rw [same]

/-! ### Writes (R104, R105, R111) -/

theorem CalEntry.burnEnd_verified (c : Coefficients) : CalEntry.burnEnd true c = fun e =>
    if e.source = .default then { e with committed := c, source := .factory } else e := by
  funext e
  simp [CalEntry.burnEnd]

theorem State.takeWriteReport_commit {s : State} {p : Port} {ch : Channel} {c : Coefficients}
    (h : s.cal.commit = some ⟨.commit c, ch, p⟩) (verified : Bool) :
    s.takeWriteReport verified =
      ((s.updCalEntry ch (CalEntry.commitEnd verified c)).emptyCommit).raise p (storeEvent verified) := by
  unfold State.takeWriteReport
  rw [h]

theorem State.takeWriteReport_burnFactory {s : State} {p : Port} {ch : Channel} {c : Coefficients}
    (h : s.cal.commit = some ⟨.burnFactory c, ch, p⟩) (verified : Bool) :
    s.takeWriteReport verified =
      ((s.updCalEntry ch (CalEntry.burnEnd verified c)).emptyCommit).raise p (storeEvent verified) := by
  unfold State.takeWriteReport
  rw [h]

/-! ### Readings (R106, R112, R114) -/

/-- The committed part of an entry set from its channel's field and factory record. -/
theorem State.installRecords_eq (s : State) (ch : Channel) : s.installRecords ch = s.updCalEntry ch fun e =>
    match s.fieldRecord ch, s.factoryRecord ch with
    | .valid c, _ => { e with committed := c, source := .field }
    | _, .valid c => { e with committed := c, source := .factory }
    | _, _ => { e with committed := ⟨0, 16384⟩, source := .default } := by
  unfold State.installRecords State.recordsGive
  cases s.fieldRecord ch <;> cases s.factoryRecord ch <;> rfl

/-! ### The ends -/

section
variable {s : State} {p : Port} {ch : Channel} {c : Coefficients} (awake : s.inReset = false) (due : s.store.opEnd ≤ s.now)
include awake due

theorem State.storeEndDue_of : s.storeEndDue = true := by
  simp [State.storeEndDue, awake, due]

theorem State.storeWriteEnd_field (h : s.store.op = .writingField ch c) (verified : Bool) : s.storeWriteEnd verified =
    ((s.setFieldRecord ch (writtenRecord verified c)).storeIdle).takeWriteReport verified := by
  unfold State.storeWriteEnd
  rw [if_pos (State.storeEndDue_of awake due), h]

theorem State.storeWriteEnd_factory (h : s.store.op = .writingFactory ch c) (verified : Bool) :
    s.storeWriteEnd verified =
      ((s.setFactoryRecord ch (writtenRecord verified c)).storeIdle).takeWriteReport verified := by
  unfold State.storeWriteEnd
  rw [if_pos (State.storeEndDue_of awake due), h]

/-- The end of a COMMIT's write, in one equation for both outcomes. -/
theorem exec_storeWriteEnd_commit (h : s.store.op = .writingField ch c) (hc : s.cal.commit = some ⟨.commit c, ch, p⟩)
    (verified : Bool) : exec (.storeWriteEnd verified) s = .next
      (((s.setFieldRecord ch (writtenRecord verified c)).storeIdle.updCalEntry ch
        (CalEntry.commitEnd verified c)).emptyCommit.raise p (storeEvent verified)) :=
  congrArg Host.Outcome.next ((State.storeWriteEnd_field awake due h verified).trans
    (State.takeWriteReport_commit (s := (s.setFieldRecord ch _).storeIdle) hc verified))

/-- The end of a BURN_FACTORY's write, in one equation for both outcomes. -/
theorem exec_storeWriteEnd_burnFactory (h : s.store.op = .writingFactory ch c)
    (hc : s.cal.commit = some ⟨.burnFactory c, ch, p⟩) (verified : Bool) : exec (.storeWriteEnd verified) s = .next
      (((s.setFactoryRecord ch (writtenRecord verified c)).storeIdle.updCalEntry ch
        (CalEntry.burnEnd verified c)).emptyCommit.raise p (storeEvent verified)) :=
  congrArg Host.Outcome.next ((State.storeWriteEnd_factory awake due h verified).trans
    (State.takeWriteReport_burnFactory (s := (s.setFactoryRecord ch _).storeIdle) hc verified))

theorem exec_storeReadEnd_reading {k : CommitKind} (h : s.store.op = .reading ch) (hc : s.cal.commit = some ⟨k, ch, p⟩) :
    exec .storeReadEnd s = .next ((s.installRecords ch).storeIdle.emptyCommit.raise p .storeDone) := by
  have commit : (s.installRecords ch).storeIdle.cal.commit = some ⟨k, ch, p⟩ := hc
  refine congrArg Host.Outcome.next (?_ : s.storeReadEnd = _)
  unfold State.storeReadEnd
  rw [if_pos (State.storeEndDue_of awake due), h]
  dsimp only
  rw [commit]

theorem State.loadChannelEnd_loading (h : s.store.op = .loading ch) : s.loadChannelEnd =
    if ch = 31 then (s.installRecords ch).storeIdle.raiseAll .loadDone
    else (s.installRecords ch).startStore (.loading (ch + 1)) (s.readingTime (ch + 1)) := by
  unfold State.loadChannelEnd
  rw [if_pos (State.storeEndDue_of awake due), h]
  rfl

end

theorem exec_loadChannelEnd (s : State) : exec .loadChannelEnd s = .next s.loadChannelEnd := rfl

/-- Settles O43: the two writes with their outcomes, a RELOAD's reading, and a channel of the load. -/
theorem storeEnds : Obligations.StoreEnds := by
  refine ⟨fun p ch c s awake due => ⟨fun writing commit => ?_, fun writing commit => ?_⟩, fun ch s awake due => ?_⟩
  · have ended := exec_storeWriteEnd_commit awake due writing commit
    exact ⟨ended true, ended false⟩
  · have ended := exec_storeWriteEnd_burnFactory awake due writing commit
    refine ⟨?_, ?_⟩
    · rw [ended, CalEntry.burnEnd_verified]
      rfl
    · rw [ended, State.updCalEntry_id _ ch rfl]
      rfl
  · intro installed idle
    have installs : s.installRecords ch = installed := s.installRecords_eq ch
    refine ⟨fun k p reading commit => ?_, fun loading last => ?_, fun loading more => ?_⟩
    · rw [exec_storeReadEnd_reading awake due reading commit, installs]
      rfl
    · rw [exec_loadChannelEnd, State.loadChannelEnd_loading awake due loading, if_pos last, installs]
      rfl
    · rw [exec_loadChannelEnd, State.loadChannelEnd_loading awake due loading, if_neg more, installs, State.readingTime_eq]
      rfl

end Sys2Proof.Machine
end

section
/-! SUPPORT. Shared delivery at one port: when a filter element applies to a copy, which action decides it, and what the
actions do (R118, R124-R129). -/
namespace Sys2Proof.Machine

/-! ### Match kinds (R124) -/

section
variable {f : FilterElement} (ch : Channel) (tag : BitVec 8)

theorem FilterElement.kindMatches_range (h : f.kind = 0) : f.kindMatches ch tag = true ↔
    (f.first.setWidth 5).toNat ≤ ch.toNat ∧ ch.toNat ≤ (f.second.setWidth 5).toNat := by
  simp [FilterElement.kindMatches, h]

theorem FilterElement.kindMatches_pair (h : f.kind = 1) : f.kindMatches ch tag = true ↔
    ch = f.first.setWidth 5 ∨ ch = f.second.setWidth 5 := by
  simp [FilterElement.kindMatches, h]

theorem FilterElement.kindMatches_mask (h : f.kind = 2) : f.kindMatches ch tag = true ↔
    ch &&& f.second.setWidth 5 = f.first.setWidth 5 &&& f.second.setWidth 5 := by
  simp [FilterElement.kindMatches, h]

theorem FilterElement.kindMatches_tag (h : f.kind = 3) : f.kindMatches ch tag = true ↔
    tag &&& f.second = f.first &&& f.second := by
  simp [FilterElement.kindMatches, h]

end

/-! ### Actions by their codes (§11.6, R118) -/

/-- The latest-value slot that an element names (§11.6). -/
def FilterElement.slotIndex (f : FilterElement) : Fin 16 := ⟨f.slot.toNat, f.slot.isLt⟩

/-- The action of a code that names no slot: 1 STORE_Q0, 2 STORE_Q1, 3 STORE_Q0_URGENT, 4 WATCH; any other is REJECT. -/
def codedAction (code : Nat) : FilterAction :=
  if code = 1 then .store .q0 else if code = 2 then .store .q1 else if code = 3 then .storeUrgent
  else if code = 4 then .watch else .reject

theorem FilterElement.actionOf_coded {f : FilterElement} (h : f.action.toNat < 5) :
    f.actionOf = some (codedAction f.action.toNat) := by
  have codes : f.action.toNat = 0 ∨ f.action.toNat = 1 ∨ f.action.toNat = 2 ∨ f.action.toNat = 3 ∨
      f.action.toNat = 4 := by omega
  unfold FilterElement.actionOf
  obtain e | e | e | e | e := codes <;> rw [e] <;> rfl

theorem FilterElement.actionOf_storeSlot {f : FilterElement} (h : f.action.toNat = 5) :
    f.actionOf = some (.storeSlot f.slotIndex) := by
  unfold FilterElement.actionOf
  rw [h]
  rfl

theorem FilterElement.actionOf_unnamed {f : FilterElement} (h : 5 < f.action.toNat) : f.actionOf = none := by
  have others : ∀ n, n ≤ 5 → ¬f.action.toNat = n := by omega
  simp [FilterElement.actionOf, others]

theorem codedAction_ne_storeSlot (code : Nat) (n : Fin 16) : codedAction code ≠ .storeSlot n := by
  unfold codedAction
  repeat' split
  all_goals exact fun same => FilterAction.noConfusion same

theorem unmatchedAction_coded (code : BitVec 2) :
    unmatchedAction code = codedAction (if code.toNat ≤ 2 then code.toNat else 0) := by
  have codes : code.toNat = 0 ∨ code.toNat = 1 ∨ code.toNat = 2 ∨ code.toNat = 3 := by omega
  unfold unmatchedAction
  obtain e | e | e | e := codes <;> rw [e] <;> rfl

/-! ### The element that decides (R125) -/

/-- An element applies to a copy: it is enabled, accepts the source port, matches, has one of the six actions, and finds
its slot free if it is to store there (R125). -/
def PortState.Applies (ps : PortState) (rec : SampleRecord) (f : FilterElement) : Prop :=
  f.enabled = true ∧ f.accepts rec.sourcePort = true ∧ f.kindMatches rec.channel rec.tag = true ∧ f.action.toNat ≤ 5 ∧
    (f.action.toNat = 5 → (tget ps.latest f.slotIndex).newData = false)

section
variable {ps : PortState} {rec : SampleRecord}

theorem PortState.applies_iff (f : FilterElement) : ps.applies rec f = true ↔ ps.Applies rec f := by
  unfold PortState.applies PortState.Applies
  rw [Bool.and_eq_true, Bool.and_eq_true, Bool.and_eq_true, and_assoc, and_assoc]
  refine and_congr_right fun _ => and_congr_right fun _ => and_congr_right fun _ => ?_
  obtain coded | slot | unnamed := Nat.lt_trichotomy f.action.toNat 5
  · have other := codedAction_ne_storeSlot f.action.toNat
    rw [FilterElement.actionOf_coded coded]
    split
    · next e => exact absurd e (Option.some_ne_none _)
    · next n e => exact absurd (Option.some.inj e) (other n)
    · exact iff_of_true rfl ⟨Nat.le_of_lt coded, fun five => absurd five (Nat.ne_of_lt coded)⟩
  · simp [FilterElement.actionOf_storeSlot slot, slot]
  · rw [FilterElement.actionOf_unnamed unnamed]
    exact iff_of_false Bool.false_ne_true fun ⟨named, _⟩ => Nat.not_le_of_lt unnamed named

theorem PortState.decidingAction_first {k : Fin 16} (first : ps.Applies rec (tget ps.filters k))
    (before : ∀ j, j < k → ¬ps.Applies rec (tget ps.filters j)) :
    ps.decidingAction rec = (tget ps.filters k).actionOf.getD .reject := by
  have found : ps.filters.toList.find? (ps.applies rec) = some (tget ps.filters k) := by
    refine List.find?_eq_some_iff_getElem.mpr
      ⟨(ps.applies_iff _).mpr first, k.val, by simp, by simp [tget], fun j hj => ?_⟩
    have fails := mt (PortState.applies_iff _).mp (before ⟨j, Nat.lt_trans hj k.isLt⟩ hj)
    simpa [tget] using fails
  unfold PortState.decidingAction
  rw [found]

theorem PortState.decidingAction_unmatched (nobody : ∀ j, ¬ps.Applies rec (tget ps.filters j)) :
    ps.decidingAction rec = unmatchedAction ps.unmatched := by
  have missing : ps.filters.toList.find? (ps.applies rec) = none := List.find?_eq_none.mpr fun f hf => by
    obtain ⟨j, hj, e⟩ := List.getElem_of_mem hf
    have fails := mt (PortState.applies_iff _).mp (nobody ⟨j, by simpa using hj⟩)
    simpa [tget, ← e] using fails
  unfold PortState.decidingAction
  rw [missing]

/-! ### What an action does (R126-R129) -/

theorem PortState.carryOut_coded (ps : PortState) (rec : SampleRecord) (code : Nat) :
    ps.carryOut (codedAction code) rec =
      if code = 1 then (ps.storeUnreserved .q0 rec).1
      else if code = 2 then (ps.storeUnreserved .q1 rec).1
      else if code = 3 then
        (if (ps.storeUnreserved .q0 { rec with urgent := true }).2 then
          (ps.storeUnreserved .q0 { rec with urgent := true }).1.raise .urgent
        else (ps.storeUnreserved .q0 { rec with urgent := true }).1)
      else if code = 4 then { ps with watched := ps.watched ||| BitVec.twoPow 32 rec.channel.toNat }.raise .watched
      else ps := by
  obtain rfl | rfl | rfl | rfl | ⟨not1, not2, not3, not4⟩ :
      code = 1 ∨ code = 2 ∨ code = 3 ∨ code = 4 ∨ code ≠ 1 ∧ code ≠ 2 ∧ code ≠ 3 ∧ code ≠ 4 := by omega
  · rfl
  · rfl
  · rfl
  · rfl
  · simp [codedAction, PortState.carryOut, not1, not2, not3, not4]

theorem PortState.storeSlot_free {n : Fin 16} (free : (tget ps.latest n).newData = false) :
    ps.storeSlot n rec = ({ ps with latest := tset ps.latest n ⟨rec, true⟩ }.raise .slotNew, true) := by
  unfold PortState.storeSlot
  rw [free]
  rfl

theorem PortState.storeSlot_occupied {n : Fin 16} (occupied : (tget ps.latest n).newData = true) :
    ps.storeSlot n rec = (ps, false) := if_pos occupied

theorem PortState.offer_first {k : Fin 16} (first : ps.Applies rec (tget ps.filters k))
    (before : ∀ j, j < k → ¬ps.Applies rec (tget ps.filters j)) :
    ps.offer rec = ps.carryOut ((tget ps.filters k).actionOf.getD .reject) rec := by
  unfold PortState.offer
  rw [PortState.decidingAction_first first before]

theorem PortState.offer_unmatched (nobody : ∀ j, ¬ps.Applies rec (tget ps.filters j)) :
    ps.offer rec = ps.carryOut (unmatchedAction ps.unmatched) rec := by
  unfold PortState.offer
  rw [PortState.decidingAction_unmatched nobody]

end

/-- Settles O31: the four match kinds, and the first element that applies, by whether its action names a slot. -/
theorem sharedDelivery : Obligations.SharedDelivery := by
  refine ⟨fun f ch tag => ⟨f.kindMatches_range ch tag, f.kindMatches_pair ch tag, f.kindMatches_mask ch tag,
    f.kindMatches_tag ch tag, rfl, rfl, rfl⟩, fun ps rec => ⟨fun k first before => ⟨fun coded => ?_, fun slot => ?_⟩,
    fun nobody => ?_⟩⟩
  · have ⟨_, _, _, named, _⟩ := first
    rw [PortState.offer_first first before, FilterElement.actionOf_coded (Nat.lt_of_le_of_ne named coded)]
    exact ps.carryOut_coded rec _
  · have ⟨_, _, _, _, free⟩ := first
    rw [PortState.offer_first first before, FilterElement.actionOf_storeSlot slot]
    exact congrArg Prod.fst (PortState.storeSlot_free (free slot))
  · rw [PortState.offer_unmatched nobody, unmatchedAction_coded]
    exact ps.carryOut_coded rec _

end Sys2Proof.Machine
end

section
/-! SUPPORT. The Delivery Unit's taking of a sample: own delivery by the target and the policy, and the offer of a
shared sample to the other OPEN ports (R18, R119-R123). -/
namespace Sys2Proof.Machine

/-! ### The store of own delivery (R120, R121) -/

theorem SlotFields.targetOf_nowhere {f : SlotFields} (h : f.target.toNat = 0) : f.targetOf = some .none := if_pos h

theorem SlotFields.targetOf_slots {f : SlotFields} (h : f.target.toNat = 3) (base : f.base.toNat ≤ 15) :
    f.targetOf = some (.slots f.base.toNat) := by
  simp [SlotFields.targetOf, h, base]

theorem code_eq_queueCode {q : QueueId} {code : Nat} (h : (q = .q0 ∧ code = 1) ∨ (q = .q1 ∧ code = 2)) :
    code = queueCode q := by
  obtain ⟨rfl, rfl⟩ | ⟨rfl, rfl⟩ := h <;> rfl

theorem Slot.drawsReserved_eq_false {x : Slot} (h : x.fields.policy.toNat = 0 ∨ x.held = 0) :
    x.drawsReserved = false := by
  rw [Bool.eq_false_iff, Ne, Slot.drawsReserved_iff]
  omega

section
variable {x : Slot} {ps : PortState} {rec : SampleRecord} {e : Nat}

theorem PortState.ownStore_nowhere (h : x.fields.target.toNat = 0) : ps.ownStore x e rec = none := by
  unfold PortState.ownStore
  rw [SlotFields.targetOf_nowhere h]

theorem PortState.ownStore_unreserved {q : QueueId} (target : x.fields.target.toNat = queueCode q)
    (free : x.drawsReserved = false) : ps.ownStore x e rec = some (ps.storeUnreserved q rec) := by
  unfold PortState.ownStore
  rw [(x.fields.targetOf_queueCode q).mpr target, free]
  rfl

theorem PortState.ownStore_reserved {q : QueueId} (target : x.fields.target.toNat = queueCode q)
    (draws : x.drawsReserved = true) (room : (ps.ring q).fill < (ps.queueConfig q).size.toNat) :
    ps.ownStore x e rec = some (ps.append q true rec, true) := by
  have stored : ps.storeReserved q rec = (ps.append q true rec, true) := if_pos room
  unfold PortState.ownStore
  rw [(x.fields.targetOf_queueCode q).mpr target, draws, ← stored]
  rfl

theorem PortState.ownStore_slots {n : Fin 16} (target : x.fields.target.toNat = 3)
    (at_n : x.fields.base.toNat + e = n.val) : ps.ownStore x e rec = some (ps.storeSlot n rec) := by
  have inside : x.fields.base.toNat + e < 16 := at_n ▸ n.isLt
  have index : (⟨x.fields.base.toNat + e, inside⟩ : Fin 16) = n := Fin.ext at_n
  unfold PortState.ownStore
  rw [SlotFields.targetOf_slots target (by omega)]
  dsimp only
  rw [dif_pos inside, index]

end

/-! ### Own delivery (R18, R120) -/

section
variable {s : State} {x : Sample} {rec : SampleRecord} {ps : PortState} {stored : Bool}

theorem State.deliverOwn_nowhere (h : (s.slot x.slot).fields.target.toNat = 0) : s.deliverOwn x rec = s := by
  unfold State.deliverOwn
  dsimp only
  rw [PortState.ownStore_nowhere h]

/-- Own delivery that draws on no reservation stores and counts, and does nothing else. -/
theorem State.deliverOwn_unreserved
    (own : (s.port (slotOwner x.slot)).ownStore (s.slot x.slot) x.entry rec = some (ps, stored))
    (free : (s.slot x.slot).drawsReserved = false) : s.deliverOwn x rec =
      (s.updPort (slotOwner x.slot) fun _ => ps).updCounters x.slot (Counters.countDelivery stored) := by
  unfold State.deliverOwn
  dsimp only
  rw [own]
  refine State.updSlot_id ?_
  have kept : Slot.drawsReserved (((s.updPort (slotOwner x.slot) fun _ => ps).updCounters x.slot
      (Counters.countDelivery stored)).slot x.slot) = false := by
    rw [State.slot_updCounters, if_pos rfl]
    exact free
  unfold Slot.consumePlace
  rw [kept, Bool.and_false]
  rfl

/-- Own delivery that draws on the reservation and is stored consumes one place of it. -/
theorem State.deliverOwn_reserved
    (own : (s.port (slotOwner x.slot)).ownStore (s.slot x.slot) x.entry rec = some (ps, true))
    (draws : (s.slot x.slot).drawsReserved = true) : s.deliverOwn x rec =
      ((s.updPort (slotOwner x.slot) fun _ => ps).updCounters x.slot (Counters.countDelivery true)).updSlot x.slot
        fun y => { y with held := y.held - 1 } := by
  unfold State.deliverOwn
  dsimp only
  rw [own]
  refine State.updSlot_congr _ _ ?_
  have kept : Slot.drawsReserved (((s.updPort (slotOwner x.slot) fun _ => ps).updCounters x.slot
      (Counters.countDelivery true)).slot x.slot) = true := by
    rw [State.slot_updCounters, if_pos rfl]
    exact draws
  unfold Slot.consumePlace
  rw [kept]
  rfl

theorem State.port_deliverOwn_other (s : State) (x : Sample) (rec : SampleRecord) {q : Port}
    (other : q ≠ slotOwner x.slot) : (s.deliverOwn x rec).port q = s.port q := by
  unfold State.deliverOwn
  dsimp only
  split
  · rfl
  · next ps stored _ => exact State.port_updPort_ne s (fun _ => ps) other

end

/-! ### The offer to the other ports (R123) -/

/-- A shared sample is offered to the other OPEN ports (R123). -/
theorem State.offeredTo_iff (s : State) (owner p : Port) :
    s.offeredTo owner none p = true ↔ (s.port p).mode = .opened ∧ p ≠ owner := by
  simp [State.offeredTo]

/-- Distinct ports, each updated once where it is chosen, and no slot changed. -/
theorem State.foldl_updPort_if (chosen : Port → Bool) (f : Port → PortState → PortState) {l : List Port}
    (distinct : l.Nodup) (s : State) :
    let t := l.foldl (fun s p => if chosen p then s.updPort p (f p) else s) s
    t.slots = s.slots ∧ ∀ q, t.port q = if q ∈ l ∧ chosen q then f q (s.port q) else s.port q := by
  induction l generalizing s with
  | nil => simp
  | cons p l ih =>
    obtain ⟨new, rest⟩ := List.nodup_cons.mp distinct
    obtain ⟨slots, ports⟩ := ih rest (if chosen p then s.updPort p (f p) else s)
    refine ⟨slots.trans (by split <;> rfl), fun q => (ports q).trans ?_⟩
    by_cases at_p : q = p
    · subst at_p
      by_cases c : chosen q <;> simp [new, c]
    · by_cases c : chosen p <;> simp [at_p, c, State.port_updPort_ne]

theorem mem_allPorts (p : Port) : p ∈ allPorts := by cases p <;> decide

theorem nodup_allPorts : allPorts.Nodup := by decide

section
variable (s : State) (x : Sample)

/-- `s` with one more entry produced by the posting of a sample (R18). -/
def State.produced : State := s.updCounters x.slot fun c => { c with entriesProduced := c.entriesProduced + 1 }

/-- `s` with a sample counted as produced and delivered to its owner (R18, R119). -/
def State.ownTaken : State := (s.produced x).deliverOwn x (s.copyRecord (slotOwner x.slot) false x)

theorem State.deliver_unshared {s : State} {x : Sample} (alone : (s.slot x.slot).fields.share = false) :
    s.deliver none x = s.ownTaken x := by
  unfold State.deliver
  dsimp only
  rw [alone]
  rfl

theorem State.deliver_shared {s : State} {x : Sample} (shared : (s.slot x.slot).fields.share = true) :
    s.deliver none x = allPorts.foldl (fun t p => if s.offeredTo (slotOwner x.slot) none p then
      t.updPort p (PortState.offer (s.copyRecord p true x)) else t) (s.ownTaken x) := by
  unfold State.deliver
  dsimp only
  rw [shared]
  rfl

theorem State.port_ownTaken_other {q : Port} (other : q ≠ slotOwner x.slot) : (s.ownTaken x).port q = s.port q :=
  State.port_deliverOwn_other _ x _ other

end

/-- Settles O30: own delivery by target, policy and held places; then the sample's taking, the offers port by port. -/
theorem sampleDelivery : Obligations.SampleDelivery := by
  refine ⟨fun x rec s => ⟨State.deliverOwn_nowhere, fun q code named target drop => ?_,
    fun q code named target stall held room => ?_, fun n target drop at_n => ⟨fun free => ?_, fun occupied => ?_⟩⟩,
    fun x s => ⟨State.deliver_unshared, fun shared => ?_⟩⟩
  · have unheld := Slot.drawsReserved_eq_false drop
    have own := PortState.ownStore_unreserved (ps := s.port (slotOwner x.slot)) (rec := rec) (e := x.entry)
      (target.trans (code_eq_queueCode named)) unheld
    rw [State.deliverOwn_unreserved own unheld]
    exact congrArg (State.updCounters _ _) (State.updPort_congr s _ rfl)
  · have draws := (Slot.drawsReserved_iff _).mpr ⟨stall, held⟩
    have own := PortState.ownStore_reserved (rec := rec) (e := x.entry)
      (target.trans (code_eq_queueCode named)) draws room
    rw [State.deliverOwn_reserved own draws]
    exact congrArg (State.updSlot _ _) (congrArg (State.updCounters _ _) (State.updPort_congr s _ rfl))
  · have own := PortState.ownStore_slots (ps := s.port (slotOwner x.slot)) (rec := rec) target at_n
    rw [PortState.storeSlot_free free] at own
    rw [State.deliverOwn_unreserved own (Slot.drawsReserved_eq_false (.inl drop)), State.raise, State.updPort_updPort]
    exact congrArg (State.updCounters _ _) (State.updPort_congr s _ rfl)
  · have own := PortState.ownStore_slots (ps := s.port (slotOwner x.slot)) (rec := rec) target at_n
    rw [PortState.storeSlot_occupied occupied] at own
    rw [State.deliverOwn_unreserved own (Slot.drawsReserved_eq_false (.inl drop)), State.updPort_id rfl]
    rfl
  · obtain ⟨slots, ports⟩ := State.foldl_updPort_if (s.offeredTo (slotOwner x.slot) none)
      (fun p => PortState.offer (s.copyRecord p true x)) nodup_allPorts (s.ownTaken x)
    rw [State.deliver_shared shared]
    refine ⟨slots, (ports _).trans (if_neg fun h => ?_), fun q other => (ports q).trans ?_⟩
    · obtain ⟨-, notOwner⟩ := (s.offeredTo_iff _ _).mp h.2
      exact notOwner rfl
    · rw [s.port_ownTaken_other x other]
      exact ite_congr (propext ⟨fun h => ((s.offeredTo_iff _ _).mp h.2).1,
        fun opened => ⟨mem_allPorts q, (s.offeredTo_iff _ _).mpr ⟨opened, other⟩⟩⟩) (fun _ => rfl) fun _ => rfl

end Sys2Proof.Machine
end

section
/-! SUPPORT. The rings of the receive queues: what a store and an acknowledgement make of a ring, and what of its port they
leave (R131-R133, R135, R138). -/
namespace Sys2Proof.Machine

/-! ### Flags (R151) -/

/-- The flag's bit tells the event: the events are numbered in the order of their flags. -/
theorem Event.ofNat_bit : Function.LeftInverse Event.ofNat Event.bit := fun e => by cases e <;> rfl

theorem Event.bit_injective : Function.Injective Event.bit := Event.ofNat_bit.injective

/-- An event sets its own flag and no other (R151). -/
theorem PortState.flag_raise (ps : PortState) (d e : Event) : (ps.raise d).flag e = (ps.flag e || decide (e = d)) := by
  have inFlags : e.bit < 22 := by cases e <;> decide
  simp [PortState.flag, PortState.raise, inFlags, Event.bit_injective.eq_iff]

theorem PortState.flag_raiseIf (ps : PortState) (c : Bool) (d e : Event) :
    (ps.raiseIf c d).flag e = (ps.flag e || decide (e = d ∧ c = true)) := by
  cases c
  · simp [PortState.raiseIf]
  · simp [PortState.raiseIf, PortState.flag_raise]

theorem PortState.raiseIf_eq (ps : PortState) (c : Bool) (e : Event) :
    ps.raiseIf c e = { ps with flags := (ps.raiseIf c e).flags } := by
  cases c <;> rfl

/-! ### The timeout counter (R138) -/

theorem PortState.isTimeoutSource_iff (ps : PortState) (q : QueueId) :
    ps.isTimeoutSource q = true ↔ ps.config.timeoutSource.toNat = queueCode q := by
  cases q <;> exact beq_iff_eq.trans BitVec.toNat_eq

theorem PortState.startTimeout_eq (ps : PortState) (q : QueueId) :
    ps.startTimeout q = { ps with
      timeout := if ps.config.timeoutSource.toNat = queueCode q ∧ ps.timeout.state = .held then
        ⟨ps.config.timeoutPreset.toNat, .counting, 0⟩ else ps.timeout } := by
  have starts : (ps.isTimeoutSource q && ps.timeout.state == .held) = true ↔
      ps.config.timeoutSource.toNat = queueCode q ∧ ps.timeout.state = .held := by
    rw [Bool.and_eq_true, ps.isTimeoutSource_iff, beq_iff_eq]
  unfold PortState.startTimeout
  split
  · next h => rw [if_pos (starts.mp h)]
  · next h => rw [if_neg fun h' => h (starts.mpr h')]

theorem PortState.sourceEmptied_eq (ps : PortState) (q : QueueId) :
    ps.sourceEmptied q = { ps with
      timeout := if ps.config.timeoutSource.toNat = queueCode q then ⟨ps.config.timeoutPreset.toNat, .held, 0⟩
        else ps.timeout } := by
  unfold PortState.sourceEmptied
  split
  · next h => rw [if_pos ((ps.isTimeoutSource_iff q).mp h)]; rfl
  · next h => rw [if_neg fun h' => h ((ps.isTimeoutSource_iff q).mpr h')]

/-! ### One ring of a port -/

section
variable (ps : PortState) (q : QueueId) (f : Ring → Ring)

@[simp] theorem PortState.ring_updRing_self : (ps.updRing q f).ring q = f (ps.ring q) := by cases q <;> rfl

theorem PortState.ring_updRing_ne {r : QueueId} (other : r ≠ q) : (ps.updRing q f).ring r = ps.ring r := by
  cases q <;> cases r
  · exact absurd rfl other
  · rfl
  · rfl
  · exact absurd rfl other

@[simp] theorem PortState.mode_updRing : (ps.updRing q f).mode = ps.mode := by cases q <;> rfl
@[simp] theorem PortState.config_updRing : (ps.updRing q f).config = ps.config := by cases q <;> rfl
@[simp] theorem PortState.timeout_updRing : (ps.updRing q f).timeout = ps.timeout := by cases q <;> rfl
@[simp] theorem PortState.latest_updRing : (ps.updRing q f).latest = ps.latest := by cases q <;> rfl
@[simp] theorem PortState.completions_updRing : (ps.updRing q f).completions = ps.completions := by cases q <;> rfl
@[simp] theorem PortState.watched_updRing : (ps.updRing q f).watched = ps.watched := by cases q <;> rfl
@[simp] theorem PortState.flag_updRing (e : Event) : (ps.updRing q f).flag e = ps.flag e := by cases q <;> rfl

theorem PortState.settingsSame_updRing : ps.SettingsSame (ps.updRing q f) := by
  cases q <;> exact ⟨rfl, rfl, rfl, rfl, rfl, rfl, rfl, rfl, rfl, rfl, rfl⟩

end

/-- An update of a ring is what it makes of the ring as it stands. -/
theorem PortState.updRing_congr (ps : PortState) {q : QueueId} {f g : Ring → Ring} (h : f (ps.ring q) = g (ps.ring q)) :
    ps.updRing q f = ps.updRing q g := by
  cases q
  · exact congrArg (fun r => { ps with ring0 := r }) h
  · exact congrArg (fun r => { ps with ring1 := r }) h

/-! ### What a store makes of a ring (R132, R133) -/

theorem Ring.setPosition_eq (r : Ring) (i : Nat) (x : Position) :
    r.setPosition i x = { r with positions := (r.setPosition i x).positions } := by
  unfold Ring.setPosition
  split <;> rfl

theorem Ring.tget_setPosition (r : Ring) {i : Nat} (h : i < 64) (x : Position) (k : Fin 64) :
    tget (r.setPosition i x).positions k = if k.val = i then x else tget r.positions k := by
  unfold Ring.setPosition
  rw [dif_pos h]
  exact (tget_tset r.positions ⟨i, h⟩ k x).trans (ite_congr (propext Fin.ext_iff) (fun _ => rfl) fun _ => rfl)

/-- The ring with a record appended: the entry stands at put, and a STALL own store turns a reserved place into a filled
one (R132). -/
def Ring.push (size : Nat) (reserved : Bool) (rec : SampleRecord) (r : Ring) : Ring :=
  { r with positions := (r.setPosition r.put ⟨r.nextNumber, rec⟩).positions
           put := nextIndex size r.put, nextNumber := r.nextNumber + 1, fill := r.fill + 1
           reserved := if reserved then r.reserved - 1 else r.reserved }

/-- The ring with its oldest entry replaced by a record (R133). -/
def Ring.replaceOldest (size : Nat) (rec : SampleRecord) (r : Ring) : Ring :=
  { r with positions := (r.setPosition r.get ⟨r.nextNumber, rec⟩).positions
           put := nextIndex size r.put, get := nextIndex size r.get, nextNumber := r.nextNumber + 1
           overwritten := min (r.overwritten + 1) 32768 }

/-- The ring with its oldest `leaving` entries gone (R135). -/
def Ring.release (size leaving : Nat) (r : Ring) : Ring :=
  { r with get := (r.get + leaving) % size, fill := r.fill - leaving, overwritten := 0 }

section
variable (ps : PortState) (q : QueueId) (reserved : Bool) (rec : SampleRecord)

/-- An append: the ring is pushed, the two events are raised on their conditions, and the counter may start. -/
theorem PortState.append_eq :
    ps.append q reserved rec =
      let stored := ((ps.updRing q (Ring.push (ps.queueSize q) reserved rec)).raiseIf
        ((ps.queueConfig q).watermark.toNat != 0 && (ps.ring q).fill + 1 == (ps.queueConfig q).watermark.toNat)
        (watermarkEvent q)).raiseIf ((ps.ring q).fill + 1 == ps.queueSize q) (fullEvent q)
      if (ps.ring q).fill = 0 then stored.startTimeout q else stored := by
  have pushed : ∀ f : Ring → Ring, f (ps.ring q) = (ps.ring q).push (ps.queueSize q) reserved rec →
      ps.updRing q f = ps.updRing q (Ring.push (ps.queueSize q) reserved rec) := fun f h => ps.updRing_congr h
  unfold PortState.append
  dsimp only
  rw [pushed _ (by rw [Ring.setPosition_eq]; rfl)]
  exact ite_congr (propext (Nat.succ_inj (b := 0))) (fun _ => rfl) fun _ => rfl

/-- Beside the ring, an append writes flags and the timeout counter alone. -/
theorem PortState.append_parts :
    ps.append q reserved rec = { ps.updRing q (Ring.push (ps.queueSize q) reserved rec) with
      flags := (ps.append q reserved rec).flags, timeout := (ps.append q reserved rec).timeout } := by
  rw [ps.append_eq, PortState.raiseIf_eq _ _ (fullEvent q), PortState.raiseIf_eq _ _ (watermarkEvent q)]
  dsimp only
  split
  · rw [PortState.startTimeout_eq]
  · rfl

theorem PortState.ring_append (r : QueueId) :
    (ps.append q reserved rec).ring r = (ps.updRing q (Ring.push (ps.queueSize q) reserved rec)).ring r := by
  rw [ps.append_parts]
  cases r <;> rfl

theorem PortState.flag_append (e : Event) :
    (ps.append q reserved rec).flag e = (ps.flag e ||
      decide (e = watermarkEvent q ∧ (ps.queueConfig q).watermark.toNat ≠ 0 ∧
        (ps.ring q).fill + 1 = (ps.queueConfig q).watermark.toNat) ||
      decide (e = fullEvent q ∧ (ps.ring q).fill + 1 = ps.queueSize q)) := by
  have started : ∀ t : PortState, (t.startTimeout q).flag e = t.flag e := fun t => by rw [t.startTimeout_eq]; rfl
  rw [ps.append_eq]
  dsimp only
  rw [apply_ite (PortState.flag e), started, ite_self, PortState.flag_raiseIf, PortState.flag_raiseIf,
    PortState.flag_updRing]
  simp only [Bool.and_eq_true, bne_iff_ne, beq_iff_eq]

theorem PortState.timeout_append :
    (ps.append q reserved rec).timeout =
      if (ps.ring q).fill = 0 ∧ ps.config.timeoutSource.toNat = queueCode q ∧ ps.timeout.state = .held then
        ⟨ps.config.timeoutPreset.toNat, .counting, 0⟩ else ps.timeout := by
  rw [ps.append_eq, PortState.raiseIf_eq _ _ (fullEvent q), PortState.raiseIf_eq _ _ (watermarkEvent q)]
  dsimp only
  by_cases empty : (ps.ring q).fill = 0
  · rw [if_pos empty, PortState.startTimeout_eq]
    dsimp only
    rw [PortState.config_updRing, PortState.timeout_updRing]
    exact ite_congr (propext (and_iff_right empty).symm) (fun _ => rfl) fun _ => rfl
  · rw [if_neg empty, if_neg fun h => empty h.1]
    exact PortState.timeout_updRing _ _ _

theorem PortState.settingsSame_append : ps.SettingsSame (ps.append q reserved rec) := by
  rw [ps.append_parts]
  exact ps.settingsSame_updRing q _

/-- The replacing of the oldest entry, part by part (R133). -/
theorem PortState.overwriteOldest_eq :
    ps.overwriteOldest q rec = (ps.updRing q (Ring.replaceOldest (ps.queueSize q) rec)).raise (lostEvent q) := by
  unfold PortState.overwriteOldest
  refine congrArg (PortState.raise _) (ps.updRing_congr ?_)
  rw [Ring.setPosition_eq]
  rfl

theorem PortState.ring_overwriteOldest (r : QueueId) :
    (ps.overwriteOldest q rec).ring r = (ps.updRing q (Ring.replaceOldest (ps.queueSize q) rec)).ring r := by
  rw [ps.overwriteOldest_eq]
  cases r <;> rfl

end

/-- Settles O28: the ring is pushed, and the flags and the counter follow the fill as it stood. -/
theorem queueStore : Obligations.QueueStore := by
  intro ps q code reserved rec named hput r size watermark t
  obtain rfl := code_eq_queueCode named
  have ring : t.ring q = r.push size reserved rec := (ps.ring_append q reserved rec q).trans (ps.ring_updRing_self q _)
  have parts := ps.append_parts q reserved rec
  refine ⟨congrArg Ring.fill ring, congrArg Ring.put ring, (congrArg Ring.get ring :), congrArg Ring.nextNumber ring,
    (congrArg Ring.overwritten ring :), congrArg Ring.reserved ring, fun k => ?_, fun q' other => ?_, ps.flag_append q reserved rec,
    ps.timeout_append q reserved rec, ?_, ?_, ?_, ps.settingsSame_append q reserved rec⟩
  · rw [ring]
    exact r.tget_setPosition hput _ k
  · exact (ps.ring_append q reserved rec q').trans (ps.ring_updRing_ne q _ other)
  · exact (congrArg PortState.latest parts).trans (ps.latest_updRing q _)
  · exact (congrArg PortState.completions parts).trans (ps.completions_updRing q _)
  · exact (congrArg PortState.watched parts).trans (ps.watched_updRing q _)

/-! ### A store without a reservation (R120, R126, R133) -/

section
variable {ps : PortState} {q : QueueId}

theorem PortState.overwrites_iff : ps.overwrites q = true ↔ (ps.queueConfig q).mode = 1 := beq_iff_eq

theorem PortState.room_pos_iff : 0 < ps.room q ↔ (ps.ring q).fill + (ps.ring q).reserved < ps.queueSize q := by
  unfold PortState.room
  omega

variable (rec : SampleRecord)

theorem PortState.storeUnreserved_sizeless (h : ps.queueSize q = 0) :
    ps.storeUnreserved q rec = (ps.raise (lostEvent q), false) := if_pos h

variable (sized : 0 < ps.queueSize q)
include sized

theorem PortState.storeUnreserved_overwriting (mode : (ps.queueConfig q).mode = 1) :
    ps.storeUnreserved q rec =
      if (ps.ring q).fill < ps.queueSize q then (ps.append q false rec, true) else (ps.overwriteOldest q rec, true) :=
  (if_neg (Nat.ne_of_gt sized)).trans (if_pos (PortState.overwrites_iff.mpr mode))

theorem PortState.storeUnreserved_blocking (mode : (ps.queueConfig q).mode ≠ 1) :
    ps.storeUnreserved q rec = if (ps.ring q).fill + (ps.ring q).reserved < ps.queueSize q then
      (ps.append q false rec, true) else (ps.raise (lostEvent q), false) :=
  ((if_neg (Nat.ne_of_gt sized)).trans (if_neg fun h => mode (PortState.overwrites_iff.mp h))).trans
    (ite_congr (propext PortState.room_pos_iff) (fun _ => rfl) fun _ => rfl)

end

/-- Settles O29: which store it is, by size, mode and room; and the ring that a replacing of the oldest entry leaves. -/
theorem storeWithoutReservation : Obligations.StoreWithoutReservation := by
  refine ⟨fun ps q rec => ⟨PortState.storeUnreserved_sizeless rec,
    fun sized mode room => (PortState.storeUnreserved_overwriting rec sized mode).trans (if_pos room),
    fun sized mode full => (PortState.storeUnreserved_overwriting rec sized mode).trans (if_neg (Nat.not_lt.mpr full)),
    fun sized mode room => (PortState.storeUnreserved_blocking rec sized mode).trans (if_pos room),
    fun sized mode full => (PortState.storeUnreserved_blocking rec sized mode).trans (if_neg (Nat.not_lt.mpr full))⟩,
    ?_⟩
  intro ps q rec hget r size next t
  have ring : t.ring q = r.replaceOldest size rec := (ps.ring_overwriteOldest q rec q).trans (ps.ring_updRing_self q _)
  have parts := ps.overwriteOldest_eq q rec
  refine ⟨(congrArg Ring.fill ring :), (congrArg Ring.reserved ring :), congrArg Ring.put ring, congrArg Ring.get ring,
    congrArg Ring.nextNumber ring, (congrArg Ring.overwritten ring).trans ?_, fun k => ?_, fun q' other => ?_, fun e => ?_,
    ?_, ?_, ?_, ?_, ?_⟩
  · show min (r.overwritten + 1) 32768 = _
    split <;> omega
  · rw [ring]
    exact r.tget_setPosition hget _ k
  · exact (ps.ring_overwriteOldest q rec q').trans (ps.ring_updRing_ne q _ other)
  · show (ps.overwriteOldest q rec).flag e = _
    rw [parts, PortState.flag_raise, PortState.flag_updRing]
  · exact (congrArg PortState.timeout parts).trans (ps.timeout_updRing q _)
  · exact (congrArg PortState.latest parts).trans (ps.latest_updRing q _)
  · exact (congrArg PortState.completions parts).trans (ps.completions_updRing q _)
  · exact (congrArg PortState.watched parts).trans (ps.watched_updRing q _)
  · show ps.SettingsSame (ps.overwriteOldest q rec)
    rw [parts]
    exact ps.settingsSame_updRing q _

end Sys2Proof.Machine
end

section
/-! SUPPORT. The units of the queue timeout counters and of the pacing timers (R29, R138), and ACK_QUEUE (R51, R135). -/
namespace Sys2Proof.Machine

/-! ### Units and expiries (R29, R138) -/

section
variable (ps : PortState)

theorem PortState.timeoutTickDue_iff :
    ps.timeoutTickDue = true ↔ ps.timeout.state = .counting ∧ 100 ≤ ps.timeout.elapsed ∧ 0 < ps.timeout.value := by
  unfold PortState.timeoutTickDue
  rw [Bool.and_eq_true, Bool.and_eq_true, beq_iff_eq, decide_eq_true_eq, decide_eq_true_eq, and_assoc]
  rfl

theorem PortState.timeoutExpiryDue_iff :
    ps.timeoutExpiryDue = true ↔ ps.timeout.state = .counting ∧ ps.timeout.value = 0 := by
  simp [PortState.timeoutExpiryDue]

end

theorem TimerState.counting_iff (x : TimerState) :
    x.counting = true ↔ (∃ p, x = .running p) ∨ x = .orphanedRunning := by
  cases x <;> simp [TimerState.counting]

theorem Timer.unitDue_iff (t : Timer) :
    t.unitDue = true ↔
      ((∃ p, t.state = .running p) ∨ t.state = .orphanedRunning) ∧ t.prescaleInUse ≤ t.phase ∧ 0 < t.count := by
  simp [Timer.unitDue, TimerState.counting_iff, and_assoc]

theorem exec_queueTimeoutTick (p : Port) (s : State) :
    exec (.queueTimeoutTick p) s = .next (s.updPort p PortState.timeoutTick) := rfl

theorem exec_queueTimeoutExpiry (p : Port) (s : State) :
    exec (.queueTimeoutExpiry p) s = .next (s.updPort p PortState.timeoutExpiry) := rfl

theorem exec_timerUnit (n : Fin 4) (s : State) : exec (.timerUnit n) s = .next (s.updTimer n Timer.unit) := rfl

/-- Settles O27: each event is an update of one port or timer, which is none where the event is not due. -/
theorem countersFall : Obligations.CountersFall := by
  refine ⟨fun p s => ?_, fun n s => ?_⟩
  · have tick := (s.port p).timeoutTickDue_iff
    have expiry := (s.port p).timeoutExpiryDue_iff
    rw [exec_queueTimeoutTick, exec_queueTimeoutExpiry]
    refine ⟨fun counting unit above => congrArg _ (s.updPort_congr p (if_pos (tick.mpr ⟨counting, unit, above⟩))),
      fun undue => congrArg _ (State.updPort_id (if_neg fun due => ?_)), fun counting zero => congrArg _ ?_,
      fun undue => congrArg _ (State.updPort_id (if_neg fun due => ?_))⟩
    · obtain ⟨counting, unit, above⟩ := tick.mp due
      exact undue.elim (absurd counting) fun h => by omega
    · rw [State.raise, State.updPort_updPort]
      exact s.updPort_congr p (if_pos (expiry.mpr ⟨counting, zero⟩))
    · obtain ⟨counting, zero⟩ := expiry.mp due
      exact undue.elim (absurd counting) (absurd zero)
  · have unit := (s.timer n).unitDue_iff
    rw [exec_timerUnit]
    refine ⟨fun counting complete above =>
        congrArg _ (s.updTimer_congr n (if_pos (unit.mpr ⟨counting, complete, above⟩))),
      fun undue => congrArg _ (s.updTimer_id n _ (if_neg fun due => ?_))⟩
    obtain ⟨counting, complete, above⟩ := unit.mp due
    exact undue.elim (absurd counting) fun h => by omega

/-! ### The acknowledgement of entries (R135) -/

section
variable (ps : PortState) (q : QueueId) (number : Word)

/-- The distance of an element number from the oldest entry's. -/
def Ring.distance (number : Word) (r : Ring) : Nat := (number - r.oldest).toNat

/-- An acknowledgement: the ring's oldest entries leave, and a source that has become empty presets the counter. -/
theorem PortState.acknowledge_eq :
    ps.acknowledge q number =
      { ps.updRing q (Ring.release (ps.queueSize q) ((ps.ring q).distance number + 1)) with
        timeout := if (ps.ring q).fill - ((ps.ring q).distance number + 1) = 0 ∧
            ps.config.timeoutSource.toNat = queueCode q then
          ⟨ps.config.timeoutPreset.toNat, .held, 0⟩ else ps.timeout } := by
  have left : ps.acknowledge q number =
      if (ps.ring q).fill - ((ps.ring q).distance number + 1) = 0 then
        (ps.updRing q (Ring.release (ps.queueSize q) ((ps.ring q).distance number + 1))).sourceEmptied q
      else ps.updRing q (Ring.release (ps.queueSize q) ((ps.ring q).distance number + 1)) :=
    ite_congr (by rw [PortState.ring_updRing_self]; rfl) (fun _ => rfl) fun _ => rfl
  rw [left]
  by_cases emptied : (ps.ring q).fill - ((ps.ring q).distance number + 1) = 0
  · simp only [emptied, true_and, if_true]
    rw [PortState.sourceEmptied_eq, PortState.config_updRing, PortState.timeout_updRing]
  · simp only [emptied, false_and, if_false]
    cases q <;> rfl

theorem PortState.ring_acknowledge (r : QueueId) :
    (ps.acknowledge q number).ring r =
      (ps.updRing q (Ring.release (ps.queueSize q) ((ps.ring q).distance number + 1))).ring r := by
  rw [ps.acknowledge_eq]
  cases r <;> rfl

/-- The answer by the distance, in the manual's words (R135). -/
theorem PortState.ackAnswer_ok_iff : ps.ackAnswer q number = .ok ↔ (ps.ring q).distance number < (ps.ring q).fill := by
  unfold PortState.ackAnswer Ring.distance
  dsimp only
  split
  · next h => exact iff_of_true rfl h
  · next h =>
    refine iff_of_false (fun e => ?_) h
    split at e <;> cases e

theorem PortState.ackAnswer_beyond (h : (ps.ring q).fill ≤ (ps.ring q).distance number)
    [Decidable ((ps.queueConfig q).mode = 1 ∧ 1 ≤ ((ps.ring q).oldest - number).toNat ∧
      ((ps.ring q).oldest - number).toNat ≤ (ps.ring q).overwritten)] :
    ps.ackAnswer q number = if (ps.queueConfig q).mode = 1 ∧ 1 ≤ ((ps.ring q).oldest - number).toNat ∧
      ((ps.ring q).oldest - number).toNat ≤ (ps.ring q).overwritten then .staleIndex else .badIndex := by
  refine (if_neg (Nat.not_lt.mpr h)).trans (ite_congr ?_ (fun _ => rfl) fun _ => rfl)
  rw [Bool.and_eq_true, Bool.and_eq_true, PortState.overwrites_iff, decide_eq_true_eq, decide_eq_true_eq, and_assoc]

end

theorem queueNumber_none {w : Word} (h : 1 < w.toNat) : queueNumber w = none :=
  (if_neg (by omega)).trans (if_neg (by omega))

theorem queueNumber_some {w : Word} {q : QueueId} (h : w.toNat + 1 = queueCode q) : queueNumber w = some q := by
  cases q
  · exact if_pos (Nat.succ.inj h)
  · have one : w.toNat = 1 := Nat.succ.inj h
    exact (if_neg (by omega)).trans (if_pos one)

/-! ### The command (R51, R135) -/

section
variable (s : State) (p : Port) (q : QueueId)

/-- The state after an accepted acknowledgement by port `p`. -/
def State.acknowledged (number : Word) : State :=
  (s.updPort p (PortState.acknowledge q number)).returnStalled p q

theorem State.ackQueue_eq (named : queueNumber (s.port p).params.p0 = some q) :
    s.ackQueue p = if (s.port p).ackAnswer q (s.port p).params.p1 = .ok then
      (s.acknowledged p q (s.port p).params.p1, .ok) else (s, (s.port p).ackAnswer q (s.port p).params.p1) := by
  unfold State.ackQueue
  rw [State.param_zero, named, State.param_one]
  dsimp only
  split
  · next h => exact (if_pos h).symm
  · next h => exact (if_neg h).symm

theorem ackQueue_ignoresCode : IgnoresCode p (State.ackQueue p) := by
  intro s v
  have answer : ∀ q n, ((s.withCode p v).port p).ackAnswer q n = (s.port p).ackAnswer q n := fun q n => by
    rw [State.port_withCode, if_pos rfl]
    cases q <;> rfl
  have work : ∀ q n (ps : PortState), PortState.acknowledge q n { ps with commandWord := v } =
      { PortState.acknowledge q n ps with commandWord := v } := fun q n ps => by
    rw [PortState.acknowledge_eq, PortState.acknowledge_eq]
    cases q <;> rfl
  unfold State.ackQueue
  rw [State.param_withCode, State.param_withCode]
  split
  · rfl
  · dsimp only
    rw [answer, State.updPort_withCode s p p v _ (work _ _), State.returnStalled_withCode]
    split <;> rfl

theorem exec_ackQueue : exec (.ackQueue p) s = .next (s.command p 7 fun s => s.whenOpen p (State.ackQueue p)) := rfl

variable {s p}

theorem exec_ackQueue_answered {t : State} {r : ResultCode} (ho : s.OpenAtCommand p) (done : s.ackQueue p = (t, r)) :
    ∃ w, exec (.ackQueue p) s = .next (t.answered p w 7 r) :=
  ⟨_, (exec_ackQueue s p).trans (congrArg _ ((ackQueue_ignoresCode p).answered ho done))⟩

variable (s p) (number : Word)

theorem State.port_acknowledged :
    (s.acknowledged p q number).port p = (s.port p).acknowledge q number := by
  obtain ⟨v, e, -⟩ := (s.updPort p (PortState.acknowledge q number)).returnStalled_eq p q
  unfold State.acknowledged
  rw [e]
  exact s.port_updPort_self p _

/-- The STALLED requests of the queue that fit the room after the acknowledgement become DUE (R51). -/
theorem State.slot_acknowledged (i : SlotId) :
    (s.acknowledged p q number).slot i =
      if slotOwner i = p ∧ (s.slot i).returnsFrom q (((s.port p).acknowledge q number).room q) = true then
        { s.slot i with state := .due } else s.slot i := by
  obtain ⟨v, e, slots⟩ := (s.updPort p (PortState.acknowledge q number)).returnStalled_eq p q
  rw [State.port_updPort_self] at slots
  unfold State.acknowledged
  rw [e]
  exact slots i

theorem State.acknowledged_eq :
    s.acknowledged p q number =
      { s.updPort p (PortState.acknowledge q number) with slots := (s.acknowledged p q number).slots } := by
  obtain ⟨v, e, -⟩ := (s.updPort p (PortState.acknowledge q number)).returnStalled_eq p q
  unfold State.acknowledged
  rw [e]

end

/-- Settles O26: the queue's number, then the answer by the distance; an accepted one leaves the ring released, the counter
preset if the source is empty, and the requests that fit DUE. -/
theorem ackQueue : Obligations.AckQueue := by
  classical
  intro p s ho
  refine ⟨fun high => exec_ackQueue_answered ho ?_, ?_⟩
  · unfold State.ackQueue
    rw [State.param_zero, queueNumber_none high]
  intro q code named number r size oldest d behind stale
  have code_succ : code + 1 = queueCode q := by
    obtain ⟨rfl, rfl⟩ | ⟨rfl, rfl⟩ := named <;> rfl
  have taken := s.ackQueue_eq p q (queueNumber_some (number ▸ code_succ))
  have refused : ∀ c, c ≠ .ok → (s.port p).ackAnswer q (s.port p).params.p1 = c →
      ∃ w, exec (.ackQueue p) s = .next (s.answered p w 7 c) := fun c bad answer =>
    exec_ackQueue_answered ho (by rw [taken, answer, if_neg bad])
  refine ⟨fun beyond old => refused _ nofun ?_, fun beyond young => refused _ nofun ?_, fun inside => ?_⟩
  · exact ((s.port p).ackAnswer_beyond q _ beyond).trans (if_pos old)
  · exact ((s.port p).ackAnswer_beyond q _ beyond).trans (if_neg young)
  · have accepted : s.ackQueue p = (s.acknowledged p q (s.port p).params.p1, .ok) :=
      taken.trans (if_pos (((s.port p).ackAnswer_ok_iff q _).mpr inside))
    obtain ⟨w, e⟩ := exec_ackQueue_answered ho accepted
    have port := s.port_acknowledged p q (s.port p).params.p1
    have parts := (s.port p).acknowledge_eq q (s.port p).params.p1
    have ring : ((s.port p).acknowledge q (s.port p).params.p1).ring q = r.release size (d + 1) :=
      ((s.port p).ring_acknowledge q _ q).trans (PortState.ring_updRing_self _ q _)
    have emptied : r.fill - (d + 1) = 0 ↔ d + 1 = r.fill := by omega
    refine ⟨w, _, e, ?_, fun q' other => ?_, ?_, fun i => ?_, ?_⟩
    · rw [port, ring, Nat.add_assoc]
      rfl
    · rw [port, PortState.ring_acknowledge]
      exact PortState.ring_updRing_ne _ q _ other
    · rw [port, parts, code_succ]
      exact ite_congr (propext (and_congr_left' emptied)) (fun _ => rfl) fun _ => rfl
    · have room : ((s.port p).acknowledge q (s.port p).params.p1).room q = size - (r.fill - (d + 1)) - r.reserved := by
        unfold PortState.room
        rw [ring, parts]
        cases q <;> rfl
      rw [State.slot_acknowledged, room, code_succ]
      refine ite_congr (propext ?_) (fun _ => rfl) fun _ => rfl
      rw [Slot.returnsFrom_iff, and_left_comm]
    · refine (s.acknowledged_eq p q _).trans
        (congrArg (fun t : State => { t with slots := (s.acknowledged p q (s.port p).params.p1).slots })
          (s.updPort_congr p ?_))
      rw [port, ring, parts]
      cases q <;> rfl

end Sys2Proof.Machine
end

section
/-! SUPPORT. What the part's work does to queues and postings. A property of states that is kept by the few kinds of work
that touch a ring or what a posting holds (KeptByWork) and by the opening, closing and posting at a port (KeptByPorts) is
kept by every step: the endings, triggers, reports, deliveries, grants and resets are gone through once, here. -/
namespace Sys2Proof.Machine

/-! ### States with the same queues and postings -/

/-- `b` has the mode, the configuration and the rings of `a`. -/
structure PortState.QueuesSame (a b : PortState) : Prop where
  mode : b.mode = a.mode
  config : b.config = a.config
  ring : ∀ q, b.ring q = a.ring q

/-- `y` has the writable fields and the held places of `x`, and is a posting if `x` is one. -/
structure Slot.PostingSame (x y : Slot) : Prop where
  fields : y.fields = x.fields
  held : y.held = x.held
  idle : y.state = .idle ↔ x.state = .idle

/-- `t` has the queues and the postings of `s`. -/
structure State.QueuesSame (s t : State) : Prop where
  port : ∀ p, (s.port p).QueuesSame (t.port p)
  slot : ∀ i, (s.slot i).PostingSame (t.slot i)

namespace PortState.QueuesSame
variable {a b c : PortState}

theorem refl (a : PortState) : a.QueuesSame a := ⟨rfl, rfl, fun _ => rfl⟩

theorem symm (h : a.QueuesSame b) : b.QueuesSame a := ⟨h.mode.symm, h.config.symm, fun q => (h.ring q).symm⟩

theorem trans (h : a.QueuesSame b) (k : b.QueuesSame c) : a.QueuesSame c :=
  ⟨k.mode.trans h.mode, k.config.trans h.config, fun q => (k.ring q).trans (h.ring q)⟩

theorem of_coreSame (h : a.CoreSame b) : a.QueuesSame b := ⟨h.mode, h.config, fun q => match q with
  | .q0 => h.ring0
  | .q1 => h.ring1⟩

theorem updRing (h : a.QueuesSame b) (q : QueueId) (f : Ring → Ring) : (a.updRing q f).QueuesSame (b.updRing q f) := by
  refine ⟨?_, ?_, fun r => ?_⟩
  · rw [PortState.mode_updRing, PortState.mode_updRing, h.mode]
  · rw [PortState.config_updRing, PortState.config_updRing, h.config]
  · by_cases same : r = q
    · rw [same, PortState.ring_updRing_self, PortState.ring_updRing_self, h.ring]
    · rw [PortState.ring_updRing_ne _ _ _ same, PortState.ring_updRing_ne _ _ _ same, h.ring]

theorem giveBack (h : a.QueuesSame b) (x : Slot) : (a.giveBack x).QueuesSame (b.giveBack x) := by
  unfold PortState.giveBack
  split
  · exact h.updRing _ _
  · exact h

theorem append (ps : PortState) (q : QueueId) (reserved : Bool) (rec : SampleRecord) :
    (ps.updRing q (Ring.push (ps.queueSize q) reserved rec)).QueuesSame (ps.append q reserved rec) := by
  have kept := ps.setupKept_append q reserved rec
  exact ⟨kept.mode.trans (ps.mode_updRing q _).symm, kept.config.trans (ps.config_updRing q _).symm,
    ps.ring_append q reserved rec⟩

theorem overwriteOldest (ps : PortState) (q : QueueId) (rec : SampleRecord) :
    (ps.updRing q (Ring.replaceOldest (ps.queueSize q) rec)).QueuesSame (ps.overwriteOldest q rec) := by
  have kept := ps.setupKept_overwriteOldest q rec
  exact ⟨kept.mode.trans (ps.mode_updRing q _).symm, kept.config.trans (ps.config_updRing q _).symm,
    ps.ring_overwriteOldest q rec⟩

theorem acknowledge (ps : PortState) (q : QueueId) (number : Word) :
    (ps.updRing q (Ring.release (ps.queueSize q) ((ps.ring q).distance number + 1))).QueuesSame
      (ps.acknowledge q number) := by
  have kept := ps.setupKept_acknowledge q number
  exact ⟨kept.mode.trans (ps.mode_updRing q _).symm, kept.config.trans (ps.config_updRing q _).symm,
    ps.ring_acknowledge q number⟩

theorem raise (ps : PortState) (e : Event) : ps.QueuesSame (ps.raise e) := ⟨rfl, rfl, fun _ => rfl⟩

theorem storeSlot (ps : PortState) (n : Fin 16) (rec : SampleRecord) : ps.QueuesSame (ps.storeSlot n rec).1 := by
  unfold PortState.storeSlot
  split
  · exact refl ps
  · exact ⟨rfl, rfl, fun _ => rfl⟩

theorem addCompletion (ps : PortState) (r : CompletionRecord) : ps.QueuesSame (ps.addCompletion r) := by
  unfold PortState.addCompletion
  split <;> exact ⟨rfl, rfl, fun _ => rfl⟩

theorem tick (ps : PortState) : ps.QueuesSame ps.tick := by
  unfold PortState.tick
  split <;> exact ⟨rfl, rfl, fun _ => rfl⟩

theorem timeoutTick (ps : PortState) : ps.QueuesSame ps.timeoutTick := by
  unfold PortState.timeoutTick
  split <;> exact ⟨rfl, rfl, fun _ => rfl⟩

theorem timeoutExpiry (ps : PortState) : ps.QueuesSame ps.timeoutExpiry := by
  unfold PortState.timeoutExpiry
  split <;> exact ⟨rfl, rfl, fun _ => rfl⟩

theorem releaseLatest (ps : PortState) (named : Word) : ps.QueuesSame (ps.releaseLatest named) := by
  rw [ps.releaseLatest_eq]
  exact ⟨rfl, rfl, fun _ => rfl⟩

end PortState.QueuesSame

namespace Slot.PostingSame
variable {x y z : Slot}

theorem refl (x : Slot) : x.PostingSame x := ⟨rfl, rfl, Iff.rfl⟩

theorem trans (h : x.PostingSame y) (k : y.PostingSame z) : x.PostingSame z :=
  ⟨k.fields.trans h.fields, k.held.trans h.held, k.idle.trans h.idle⟩

theorem of_state (fields : y.fields = x.fields) (held : y.held = x.held) (state : y.state = x.state) :
    x.PostingSame y := ⟨fields, held, by rw [state]⟩

/-- A posting that stays one. -/
theorem of_active (fields : y.fields = x.fields) (held : y.held = x.held) (was : x.state ≠ .idle)
    (is : y.state ≠ .idle) : x.PostingSame y := ⟨fields, held, iff_of_false is was⟩

end Slot.PostingSame

/-- An update of one ring of one port. -/
def State.updRing (p : Port) (q : QueueId) (f : Ring → Ring) (s : State) : State :=
  s.updPort p fun ps => ps.updRing q f

section
variable (s : State) (p : Port) (q : QueueId) (f : Ring → Ring) (r : Port)

@[simp] theorem State.mode_updRing : ((s.updRing p q f).port r).mode = (s.port r).mode := by
  unfold State.updRing
  rw [State.port_updPort]
  split
  · exact PortState.mode_updRing _ q f
  · rfl

@[simp] theorem State.config_updRing : ((s.updRing p q f).port r).config = (s.port r).config := by
  unfold State.updRing
  rw [State.port_updPort]
  split
  · exact PortState.config_updRing _ q f
  · rfl

theorem State.ring_updRing (q' : QueueId) : ((s.updRing p q f).port r).ring q' =
    if r = p ∧ q' = q then f ((s.port r).ring q') else (s.port r).ring q' := by
  unfold State.updRing
  rw [State.port_updPort]
  by_cases port : r = p
  · rw [if_pos port]
    by_cases queue : q' = q
    · rw [if_pos ⟨port, queue⟩, queue, PortState.ring_updRing_self]
    · rw [if_neg fun h => queue h.2, PortState.ring_updRing_ne _ _ _ queue]
  · rw [if_neg port, if_neg fun h => port h.1]

end

namespace State.QueuesSame
variable {s t u : State}

theorem refl (s : State) : s.QueuesSame s := ⟨fun _ => .refl _, fun _ => .refl _⟩

theorem trans (h : s.QueuesSame t) (k : t.QueuesSame u) : s.QueuesSame u :=
  ⟨fun p => (h.port p).trans (k.port p), fun i => (h.slot i).trans (k.slot i)⟩

theorem of_eq (ports : t.ports = s.ports) (slots : t.slots = s.slots) : s.QueuesSame t := by
  have port : ∀ p, t.port p = s.port p := fun p => congrArg (Ports.port · p) ports
  have slot : ∀ i, t.slot i = s.slot i := fun i => congrArg (tget · i) slots
  exact ⟨fun p => port p ▸ .refl _, fun i => slot i ▸ .refl _⟩

theorem of_coreSame (h : s.CoreSame t) : s.QueuesSame t :=
  ⟨fun p => .of_coreSame (h.port p), fun i => by rw [h.slot i]; exact .refl _⟩

theorem foldl {α : Type} {f : State → α → State} (hf : ∀ (s : State) (a : α), s.QueuesSame (f s a)) (l : List α) (s : State) :
    s.QueuesSame (l.foldl f s) :=
  List.foldlRecOn l f (.refl s) fun t ht a _ => ht.trans (hf t a)

/-- Two updates of a port that leave it with the same queues. -/
theorem updPort₂ (s : State) (p : Port) {f g : PortState → PortState}
    (h : (f (s.port p)).QueuesSame (g (s.port p))) : (s.updPort p f).QueuesSame (s.updPort p g) := by
  refine ⟨fun q => ?_, fun _ => .refl _⟩
  rw [State.port_updPort, State.port_updPort]
  split
  · next e => exact e ▸ h
  · exact .refl _

theorem updPort (s : State) (p : Port) {f : PortState → PortState} (h : (s.port p).QueuesSame (f (s.port p))) :
    s.QueuesSame (s.updPort p f) := by
  have same := updPort₂ s p (f := id) h
  rwa [State.updPort_id (f := id) rfl] at same

/-- One update of a port in two states with the same queues. -/
theorem map_updPort (h : s.QueuesSame t) (p : Port) {f : PortState → PortState}
    (hf : ∀ {a b : PortState}, a.QueuesSame b → (f a).QueuesSame (f b)) : (s.updPort p f).QueuesSame (t.updPort p f) := by
  refine ⟨fun q => ?_, h.slot⟩
  rw [State.port_updPort, State.port_updPort]
  split
  · exact hf (h.port q)
  · exact h.port q

theorem updSlot₂ (s : State) (i : SlotId) {f g : Slot → Slot} (h : (f (s.slot i)).PostingSame (g (s.slot i))) :
    (s.updSlot i f).QueuesSame (s.updSlot i g) := by
  refine ⟨fun _ => .refl _, fun j => ?_⟩
  rw [State.slot_updSlot, State.slot_updSlot]
  split
  · next e => exact e ▸ h
  · exact .refl _

theorem updSlot (s : State) (i : SlotId) {f : Slot → Slot} (h : (s.slot i).PostingSame (f (s.slot i))) :
    s.QueuesSame (s.updSlot i f) := by
  have same := updSlot₂ s i (f := id) h
  rwa [State.updSlot_id (f := id) rfl] at same

theorem updCounters (s : State) (i : SlotId) (f : Counters → Counters) : s.QueuesSame (s.updCounters i f) :=
  updSlot s i (.of_state rfl rfl rfl)

theorem raise (s : State) (p : Port) (e : Event) : s.QueuesSame (s.raise p e) := .of_coreSame (s.coreSame_raise p e)

theorem raiseAll (s : State) (e : Event) : s.QueuesSame (s.raiseAll e) := .of_coreSame (s.coreSame_raiseAll e)

/-- The requests that one occurrence makes DUE are postings already. -/
theorem makeDue {ids : List SlotId} (active : ∀ i ∈ ids, (s.slot i).state ≠ .idle) : s.QueuesSame (s.makeDue ids) := by
  have due : ∀ stamp, s.QueuesSame (ids.foldl (fun s i => s.updSlot i (Slot.becomeDue stamp)) s) := fun stamp =>
    List.foldlRecOn ids _ (.refl s) fun t ht i hi =>
      ht.trans (updSlot t i (.of_active rfl rfl (fun e => active i hi ((ht.slot i).idle.mp e)) nofun))
  unfold State.makeDue
  split
  · exact .refl s
  · exact (due _).trans (.of_eq rfl rfl)

theorem returnStalled (s : State) (p : Port) (q : QueueId) : s.QueuesSame (s.returnStalled p q) := by
  refine foldl (fun s i => ?_) _ s
  split
  · next fits =>
    have stalled := ((Slot.returnsFrom_iff _ q _).mp fits).1
    exact updSlot s i (.of_active rfl rfl (by rw [stalled]; nofun) nofun)
  · exact .refl s

/-- The return of a reservation is that of the ring; the STALLED requests that return are postings already (R16, R51). -/
theorem returnHeld (s : State) (p : Port) (x : Slot) (examine : Bool) :
    (s.updPort p (PortState.giveBack x)).QueuesSame (s.returnHeld p x examine) := by
  unfold State.returnHeld
  split
  · next none => exact State.updPort_id (PortState.giveBack_none none _) ▸ .refl _
  · have given : ∀ g : PortState → PortState, (∀ ps, PortState.giveBack x ps = g ps) →
        (s.updPort p (PortState.giveBack x)).QueuesSame (s.updPort p g) := fun g h =>
      updPort₂ s p (by rw [h]; exact .refl _)
    split
    · next q target =>
      have back := given (fun ps => ps.updRing q fun r => { r with reserved := r.reserved - x.held }) fun ps => by
        unfold PortState.giveBack
        rw [target]
      dsimp only
      split
      · exact back.trans (returnStalled _ p q)
      · exact back
    · next other =>
      have stays := given id fun ps => by
        unfold PortState.giveBack
        split
        · next q target => exact absurd target (other q)
        · rfl
      rwa [State.updPort_id (f := id) rfl] at stays

/-- An ending leaves the slot IDLE and gives back what it held; no other posting ends (R16). -/
theorem endPosting {i : SlotId} (active : (s.slot i).state ≠ .idle) (o : Option EndOutcome) :
    ((s.updSlot i Slot.ended).updPort (slotOwner i) (PortState.giveBack (s.slot i))).QueuesSame (s.endPosting i o) := by
  have rest : ∀ t : State, s.QueuesSame t → (s.updSlot i Slot.ended).QueuesSame
      ((((t.updSlot i Slot.ended).dropTimerRef (s.slot i).fields).pruneStamps).forgetCut i) := fun t ht => by
    obtain ⟨ts, e⟩ := (t.updSlot i Slot.ended).dropTimerRef_eq (s.slot i).fields
    rw [e]
    refine ⟨ht.port, fun j => ?_⟩
    show ((s.updSlot i Slot.ended).slot j).PostingSame ((t.updSlot i Slot.ended).slot j)
    rw [State.slot_updSlot, State.slot_updSlot]
    split
    · exact ⟨(ht.slot j).fields, rfl, Iff.rfl⟩
    · exact ht.slot j
  have ended : ∀ t : State, s.QueuesSame t →
      ((s.updSlot i Slot.ended).updPort (slotOwner i) (PortState.giveBack (s.slot i))).QueuesSame
        (((((t.updSlot i Slot.ended).dropTimerRef (s.slot i).fields).pruneStamps).forgetCut i).returnHeld (slotOwner i)
          (s.slot i) o.isSome) := fun t ht =>
    ((rest t ht).map_updPort (slotOwner i) (fun h => h.giveBack _)).trans (returnHeld _ _ _ _)
  unfold State.endPosting
  rw [if_neg active]
  cases o with
  | none => exact ended s (.refl s)
  | some o => exact ended _ (updPort s _ (.addCompletion _ _))

/-- A failed room check leaves the queues, and the request a posting (R12). -/
theorem of_stalled {failed : SlotId → Prop} (h : s.Stalled failed t) (active : ∀ j, failed j → (s.slot j).state ≠ .idle) :
    s.QueuesSame t := by
  refine ⟨fun p => ?_, fun j => ?_⟩
  · rw [h.port p]
    exact ⟨rfl, rfl, fun _ => rfl⟩
  · by_cases hj : failed j
    · rw [(h.slot j).1 hj]
      exact .of_active rfl rfl (active j hj) nofun
    · rw [(h.slot j).2 hj]
      exact .refl _

/-- A winner that becomes RUNNING is a posting already. -/
theorem setRunning {i : SlotId} (active : (s.slot i).state ≠ .idle) : s.QueuesSame (s.setRunning i) := by
  have ports : ∀ p, (s.setRunning i).port p = s.port p := fun _ => rfl
  refine ⟨fun p => ports p ▸ .refl _, fun j => ?_⟩
  rw [State.slot_setRunning]
  split
  · next e => exact .of_active rfl rfl (e ▸ active) nofun
  · exact .refl _

/-- Beside its reservation, a grant leaves the queues, and its winner a posting (R50). -/
theorem grantTo {i : SlotId} (due : (s.slot i).state = .due) : (s.reserve i).QueuesSame (s.grantTo i) := by
  have reserved : ((s.reserve i).slot i).state = .due := by
    rw [State.reserve_eq]
    exact (congrArg Slot.state (State.slot_updSlot_self _ i _)).trans due
  have aged : (s.reserve i).QueuesSame ((s.reserve i).age i) := by
    refine foldl (fun s j => ?_) _ _
    exact updSlot s j (.of_state rfl rfl rfl)
  have running : ((s.reserve i).age i).QueuesSame (((s.reserve i).age i).setRunning i) := by
    refine setRunning fun e => ?_
    have idle := (aged.slot i).idle.mp e
    rw [reserved] at idle
    cases idle
  unfold State.grantTo
  exact aged.trans running

end State.QueuesSame

/-! ### The places that a posting holds -/

/-- A posting that has used one of the places that it holds (R120). -/
def Slot.usePlace (x : Slot) : Slot := { x with held := x.held - 1 }

theorem Slot.consumePlace_eq (stored : Bool) (x : Slot) :
    x.consumePlace stored = if stored = true ∧ x.drawsReserved = true then x.usePlace else x :=
  ite_congr (Bool.and_eq_true _ _) (fun _ => rfl) fun _ => rfl

/-- A queue takes a record without a reservation: it is not full, and in BLOCKING mode it has room (R120, R126, R133). -/
def PortState.Takes (ps : PortState) (q : QueueId) : Prop :=
  (ps.ring q).fill < ps.queueSize q ∧
    ((ps.queueConfig q).mode = 1 ∨ (ps.ring q).fill + (ps.ring q).reserved < ps.queueSize q)

/-- What own delivery can do at its port: use a place of the reservation, store without one, or leave the queues. -/
theorem PortState.ownStore_cases {ps ps' : PortState} {x : Slot} {e : Nat} {rec : SampleRecord} {stored : Bool}
    (own : ps.ownStore x e rec = some (ps', stored)) :
    (∃ q, x.fields.target.toNat = queueCode q ∧ x.drawsReserved = true ∧ (ps.ring q).fill < ps.queueSize q ∧
      stored = true ∧ ps' = ps.append q true rec) ∨
    (∃ q, x.drawsReserved = false ∧ ps' = (ps.storeUnreserved q rec).1) ∨
    ps.QueuesSame ps' ∧ (stored = false ∨ ∀ q, x.fields.target.toNat ≠ queueCode q) := by
  unfold PortState.ownStore at own
  split at own
  · next q target =>
    have code := (x.fields.targetOf_queueCode q).mp target
    split at own
    · next draws =>
      unfold PortState.storeReserved at own
      split at own
      · next room =>
        cases own
        exact .inl ⟨q, code, draws, room, rfl, rfl⟩
      · cases own
        exact .inr (.inr ⟨.refl _, .inl rfl⟩)
    · next free =>
      exact .inr (.inl ⟨q, Bool.eq_false_iff.mpr free, (congrArg Prod.fst (Option.some.inj own)).symm⟩)
  · next base target =>
    have nowhere : ∀ q, x.fields.target.toNat ≠ queueCode q := fun q code => by
      rw [(x.fields.targetOf_queueCode q).mpr code] at target
      cases target
    split at own
    · next inside =>
      have stays : (ps.storeSlot ⟨base + e, inside⟩ rec).1 = ps' := congrArg Prod.fst (Option.some.inj own)
      exact .inr (.inr ⟨stays ▸ .storeSlot ps _ rec, .inr nowhere⟩)
    · cases own
      exact .inr (.inr ⟨.refl _, .inl rfl⟩)
  · cases own
  · cases own

/-- The counters aside, own delivery stores and consumes the place that it has used (R120). -/
theorem State.QueuesSame.deliverOwn {s : State} {x : Sample} {rec : SampleRecord} {ps : PortState} {stored : Bool}
    (own : (s.port (slotOwner x.slot)).ownStore (s.slot x.slot) x.entry rec = some (ps, stored)) :
    ((s.updPort (slotOwner x.slot) fun _ => ps).updSlot x.slot (Slot.consumePlace stored)).QueuesSame
      (s.deliverOwn x rec) := by
  unfold State.deliverOwn
  dsimp only
  rw [own]
  dsimp only
  unfold State.updCounters
  rw [State.updSlot_updSlot]
  refine updSlot₂ _ _ ?_
  unfold Slot.consumePlace Slot.drawsReserved
  dsimp only
  split <;> exact ⟨rfl, rfl, Iff.rfl⟩

/-- A reservation is made for a STALL winner whose target is a queue, which has the room (R50, R134). -/
theorem State.reserve_cases (s : State) (i : SlotId) :
    s.reserve i = s ∨ ∃ q, (s.slot i).fields.policy.toNat = 1 ∧ (s.slot i).fields.target.toNat = queueCode q ∧
      s.reserve i = (s.updRing (slotOwner i) q (Ring.reserveScan (s.slot i))).updSlot i fun x =>
        { x with held := x.held + x.fields.scanLength.toNat } := by
  unfold State.reserve SlotFields.stalls
  dsimp only
  split
  · next stall =>
    have policy := (s.slot i).fields.policyOf_stall.mp (beq_iff_eq.mp stall)
    split
    · next q target =>
      refine .inr ⟨q, policy, (SlotFields.targetOf_queueCode _ q).mp target, State.updSlot_congr _ _ rfl⟩
    · exact .inl rfl
  · exact .inl rfl

theorem State.RoomFor.queue {s : State} {i : SlotId} (h : s.RoomFor i) {q : QueueId}
    (policy : (s.slot i).fields.policy.toNat = 1) (target : (s.slot i).fields.target.toNat = queueCode q) :
    (s.slot i).fields.scanLength.toNat ≤ (s.port (slotOwner i)).room q := by
  obtain ⟨fits0, fits1⟩ := h policy
  cases q
  · exact fits0 target
  · exact fits1 target

/-! ### The kinds of work -/

/-- What each kind of the acquisition side's work has to keep for a property of states to be kept by all of it. -/
structure KeptByWork (I : State → Prop) : Prop where
  same : ∀ s t, s.QueuesSame t → I s → I t
  push : ∀ s p q rec, (s.port p).Takes q → I s → I (s.updRing p q (Ring.push ((s.port p).queueSize q) false rec))
  replaceOldest : ∀ s p q rec, 0 < (s.port p).queueSize q → (s.port p).queueSize q ≤ ((s.port p).ring q).fill → I s →
    I (s.updRing p q (Ring.replaceOldest ((s.port p).queueSize q) rec))
  pushReserved : ∀ s i q rec, (s.slot i).fields.target.toNat = queueCode q → 0 < (s.slot i).held →
    ((s.port (slotOwner i)).ring q).fill < (s.port (slotOwner i)).queueSize q → I s →
    I ((s.updRing (slotOwner i) q (Ring.push ((s.port (slotOwner i)).queueSize q) true rec)).updSlot i Slot.usePlace)
  usePlace : ∀ s i, (∀ q, (s.slot i).fields.target.toNat ≠ queueCode q) → I s → I (s.updSlot i Slot.usePlace)
  reserve : ∀ s i q, (s.slot i).state = .due → (s.slot i).fields.policy.toNat = 1 →
    (s.slot i).fields.target.toNat = queueCode q →
    (s.slot i).fields.scanLength.toNat ≤ (s.port (slotOwner i)).room q → I s →
    I ((s.updRing (slotOwner i) q (Ring.reserveScan (s.slot i))).updSlot i fun x =>
      { x with held := x.held + x.fields.scanLength.toNat })
  ended : ∀ s i, (s.slot i).state ≠ .idle → I s →
    I ((s.updSlot i Slot.ended).updPort (slotOwner i) (PortState.giveBack (s.slot i)))

namespace KeptByWork
variable {I : State → Prop} (k : KeptByWork I) {s : State}
include k

/-- Work on other parts than the ports and the slots. -/
theorem rest {t : State} (h : I s) (ports : t.ports = s.ports) (slots : t.slots = s.slots) : I t :=
  k.same _ _ (.of_eq ports slots) h

theorem withSeq (h : I s) (q : Sequencer) : I { s with seq := q } := k.rest h rfl rfl

theorem updSeq (h : I s) (f : Sequencer → Sequencer) : I (s.updSeq f) := k.withSeq h _

theorem countFree (h : I s) : I s.countFree := k.rest h rfl rfl

theorem updPort (h : I s) (p : Port) {f : PortState → PortState} (hf : (s.port p).QueuesSame (f (s.port p))) :
    I (s.updPort p f) := k.same _ _ (.updPort s p hf) h

theorem raise (h : I s) (p : Port) (e : Event) : I (s.raise p e) := k.same _ _ (.raise s p e) h

theorem raiseAll (h : I s) (e : Event) : I (s.raiseAll e) := k.same _ _ (.raiseAll s e) h

theorem updCounters (h : I s) (i : SlotId) (f : Counters → Counters) : I (s.updCounters i f) :=
  k.same _ _ (.updCounters s i f) h

/-- An update of a slot that leaves its fields, its held places and its state. -/
theorem updSlot (h : I s) (i : SlotId) {f : Slot → Slot} (fields : (f (s.slot i)).fields = (s.slot i).fields)
    (held : (f (s.slot i)).held = (s.slot i).held) (state : (f (s.slot i)).state = (s.slot i).state) :
    I (s.updSlot i f) := k.same _ _ (.updSlot s i (.of_state fields held state)) h

/-- A posting that takes another state than IDLE. -/
theorem become (h : I s) {i : SlotId} (active : (s.slot i).state ≠ .idle) {x : SlotState} (is : x ≠ .idle) :
    I (s.updSlot i fun y => { y with state := x }) := k.same _ _ (.updSlot s i (.of_active rfl rfl active is)) h

omit k in
theorem foldl {α : Type} {f : State → α → State} (hf : ∀ (s : State) (a : α), I s → I (f s a)) (l : List α) (h : I s) :
    I (l.foldl f s) := List.foldlRecOn l f h fun t ht a _ => hf t a ht

/-! ### The Request Table -/

theorem endPosting (h : I s) (i : SlotId) (o : Option EndOutcome) : I (s.endPosting i o) := by
  by_cases idle : (s.slot i).state = .idle
  · unfold State.endPosting
    rw [if_pos idle]
    exact h
  · exact k.same _ _ (.endPosting idle o) (k.ended s i idle h)

theorem takeTrigger (h : I s) (i : SlotId) : I (s.takeTrigger i) := by
  have missed : I ((s.updCounters i Counters.missTrigger).raise (slotOwner i) .triggerMissed) :=
    k.raise (k.updCounters h i _) _ _
  have pending : I (s.updSlot i fun x => { x with pendingTrigger := true }) := k.updSlot h i rfl rfl rfl
  unfold State.takeTrigger
  dsimp only
  split
  · exact h
  · exact h
  · split
    · split
      · exact k.endPosting missed _ _
      · exact missed
    · exact pending
  · split
    · split
      · exact k.endPosting missed _ _
      · exact missed
    · exact pending
  · next running =>
    split
    · split
      · have state : ((s.updCounters i Counters.missTrigger).slot i).state = .running :=
          (congrArg Slot.state (State.slot_updSlot_self s i _)).trans running
        exact k.become missed (i := i) (by simp [state]) nofun
      · exact missed
    · exact pending
  · exact k.updCounters h i _

theorem deliverTriggers (h : I s) (ids : List SlotId) : I (s.deliverTriggers ids) := by
  have due : I (s.makeDue (ids.filter fun i => (s.slot i).state == .armed)) :=
    k.same _ _ (.makeDue fun i hi => by simp [beq_iff_eq.mp (List.mem_filter.mp hi).2]) h
  have taken : ∀ (l : List SlotId) (t : State), I t → I (l.foldl (fun s i => s.takeTrigger i) t) := fun l t ht =>
    foldl (I := I) (fun _ i h => k.takeTrigger h i) l ht
  exact k.countFree (taken _ _ (taken _ _ due))

theorem completeSweep (h : I s) (i : SlotId) : I (s.completeSweep i) := by
  have counted := k.updCounters h i Counters.completeSweep
  have due : ∀ t : State, I t → (t.slot i).state = .running → I (t.makeDue [i]) := fun t ht running =>
    k.same _ _ (.makeDue (by simp [running])) ht
  unfold State.completeSweep
  split
  · next running =>
    have state : ((s.updCounters i Counters.completeSweep).slot i).state = .running :=
      (congrArg Slot.state (State.slot_updSlot_self s i _)).trans running
    dsimp only
    split
    · exact k.endPosting counted _ _
    · split
      · exact due _ (k.updSlot counted i rfl rfl rfl) ((congrArg Slot.state (State.slot_updSlot_self _ i _)).trans state)
      · split
        · exact due _ counted state
        · exact k.become counted (by simp [state]) nofun
  · exact k.endPosting counted _ _
  all_goals exact h

theorem cutSweep (h : I s) (i : SlotId) : I (s.cutSweep i) := by
  unfold State.cutSweep
  split
  · exact k.endPosting h _ _
  all_goals exact h

theorem takeReport (h : I s) (r : Option Report) : I (s.takeReport r) := by
  unfold State.takeReport
  split
  · exact h
  · split
    · exact k.completeSweep h _
    · exact k.cutSweep h _

theorem handReport (h : I s) (r : Option Report) : I (s.handReport r) := by
  unfold State.handReport
  split
  · exact h
  · split
    · exact k.rest h rfl rfl
    · exact k.cutSweep h _

theorem takeFirstReport (h : I s) : I s.takeFirstReport := by
  unfold State.takeFirstReport
  split
  · exact h
  · exact k.completeSweep (k.withSeq h _) _

theorem takeReports (h : I s) (which : SlotId → Bool) : I (s.takeReports which) := by
  unfold State.takeReports
  exact foldl (I := I) (fun _ i h => k.completeSweep h i) _ (k.withSeq h _)

theorem takeReportsWhen (h : I s) (w : ReportTaking) : I (s.takeReportsWhen w) := by
  cases w
  · exact k.takeReports h _
  · exact h

theorem takeCancel (h : I s) (i : SlotId) (m : CancelMode) : I (s.takeCancel i m).1 := by
  have drains : ∀ d : Drain, (s.slot i).state ≠ .idle → I (s.updSlot i fun x => { x with state := .draining d }) :=
    fun d active => k.become h active nofun
  unfold State.takeCancel
  split
  · exact h
  · exact k.endPosting h _ _
  · exact k.endPosting h _ _
  · exact k.endPosting h _ _
  · next running => exact drains _ (by simp [running])
  · next running => exact k.rest (drains _ (by simp [running])) rfl rfl
  · next draining => exact k.rest (drains _ (by simp [draining])) rfl rfl
  · exact h
  · exact h

theorem cancel (h : I s) (p : Port) : I (s.cancel p).1 := by
  unfold State.cancel
  split
  · exact h
  · split
    · exact h
    · exact k.takeCancel h _ _

/-! ### Delivery -/

/-- A store without a reservation appends, replaces the oldest entry, or leaves the queues (R120, R126, R133). -/
theorem storeUnreserved (h : I s) (p : Port) (q : QueueId) (rec : SampleRecord) :
    I (s.updPort p fun ps => (ps.storeUnreserved q rec).1) := by
  have stores : ∀ {f : PortState → PortState} {r : PortState × Bool}, (s.port p).storeUnreserved q rec = r →
      I (s.updPort p f) → (f (s.port p)).QueuesSame r.1 → I (s.updPort p fun ps => (ps.storeUnreserved q rec).1) :=
    fun e h same => k.same _ _ (.updPort₂ s p (e ▸ same)) h
  have lost : ∀ {r : PortState × Bool}, (s.port p).storeUnreserved q rec = r → (s.port p).QueuesSame r.1 →
      I (s.updPort p fun ps => (ps.storeUnreserved q rec).1) := fun e same => k.updPort h p (e ▸ same)
  obtain zero | sized := Nat.eq_zero_or_pos ((s.port p).queueSize q)
  · exact lost (PortState.storeUnreserved_sizeless rec zero) (.raise _ _)
  · by_cases mode : ((s.port p).queueConfig q).mode = 1
    · have store := PortState.storeUnreserved_overwriting rec sized mode
      by_cases room : ((s.port p).ring q).fill < (s.port p).queueSize q
      · exact stores (store.trans (if_pos room)) (k.push s p q rec ⟨room, .inl mode⟩ h) (.append _ q false rec)
      · exact stores (store.trans (if_neg room)) (k.replaceOldest s p q rec sized (Nat.not_lt.mp room) h)
          (.overwriteOldest _ q rec)
    · have store := PortState.storeUnreserved_blocking rec sized mode
      by_cases room : ((s.port p).ring q).fill + ((s.port p).ring q).reserved < (s.port p).queueSize q
      · exact stores (store.trans (if_pos room)) (k.push s p q rec ⟨by omega, .inr room⟩ h) (.append _ q false rec)
      · exact lost (store.trans (if_neg room)) (.raise _ _)

theorem deliverOwn (h : I s) (x : Sample) (rec : SampleRecord) : I (s.deliverOwn x rec) := by
  cases own : (s.port (slotOwner x.slot)).ownStore (s.slot x.slot) x.entry rec with
  | none =>
    unfold State.deliverOwn
    dsimp only
    rw [own]
    exact h
  | some r =>
    obtain ⟨ps, stored⟩ := r
    refine k.same _ _ (.deliverOwn own) ?_
    obtain ⟨q, target, draws, room, rfl, rfl⟩ | ⟨q, free, rfl⟩ | ⟨same, unused⟩ := PortState.ownStore_cases own
    · have held := ((Slot.drawsReserved_iff _).mp draws).2
      refine k.same _ _ ?_ (k.pushReserved s x.slot q rec target held room h)
      have used : ∀ t : State, t.slot x.slot = s.slot x.slot →
          t.updSlot x.slot (Slot.consumePlace true) = t.updSlot x.slot Slot.usePlace := fun t e =>
        State.updSlot_congr t _ (by rw [Slot.consumePlace_eq, if_pos ⟨rfl, e ▸ draws⟩])
      rw [used (s.updPort _ _) rfl]
      refine ⟨fun p => (State.QueuesSame.updPort₂ s _ (.append _ q true rec)).port p, fun j => ?_⟩
      exact .refl _
    · have kept : ∀ t : State, t.slot x.slot = s.slot x.slot → t.updSlot x.slot (Slot.consumePlace stored) = t :=
        fun t e => State.updSlot_id (by rw [Slot.consumePlace_eq, if_neg fun used => by simp [e, free] at used])
      rw [kept (s.updPort _ _) rfl, State.updPort_congr s _ (g := fun ps => (ps.storeUnreserved q rec).1) rfl]
      exact k.storeUnreserved h _ q rec
    · have stays : I (s.updPort (slotOwner x.slot) fun _ => ps) := k.updPort h _ same
      by_cases used : stored = true ∧ (s.slot x.slot).drawsReserved = true
      · have nowhere := unused.resolve_left (by simp [used.1])
        rw [State.updSlot_congr (s.updPort _ _) _ (g := Slot.usePlace) ((Slot.consumePlace_eq _ _).trans (if_pos used))]
        exact k.usePlace _ _ nowhere stays
      · rw [State.updSlot_id (s := s.updPort _ _) ((Slot.consumePlace_eq _ _).trans (if_neg used))]
        exact stays

theorem carryOut (h : I s) (p : Port) (a : FilterAction) (rec : SampleRecord) :
    I (s.updPort p (PortState.carryOut a rec)) := by
  cases a with
  | reject => exact k.updPort h p (.refl _)
  | store q => exact k.storeUnreserved h p q rec
  | storeUrgent =>
    refine k.same _ _ (.updPort₂ s p ?_) (k.storeUnreserved h p .q0 { rec with urgent := true })
    unfold PortState.carryOut
    dsimp only
    split
    · exact .raise _ _
    · exact .refl _
  | watch => exact k.updPort h p ⟨rfl, rfl, fun _ => rfl⟩
  | storeSlot n => exact k.updPort h p (.storeSlot _ n rec)

theorem offer (h : I s) (p : Port) (rec : SampleRecord) : I (s.updPort p (PortState.offer rec)) := by
  rw [State.updPort_congr s p (f := PortState.offer rec) (g := PortState.carryOut ((s.port p).decidingAction rec) rec) rfl]
  exact k.carryOut h p _ rec

theorem deliver (h : I s) (c : Option Port) (x : Sample) : I (s.deliver c x) := by
  have own := k.deliverOwn (k.updCounters h x.slot fun c => { c with entriesProduced := c.entriesProduced + 1 }) x
    (s.copyRecord (slotOwner x.slot) false x)
  unfold State.deliver
  dsimp only
  split
  · refine foldl (I := I) (fun t p ht => ?_) _ own
    split
    · exact k.offer ht p _
    · exact ht
  · exact own

/-! ### The pipeline -/

theorem readSweep (h : I s) (c : Option Port) (r : SweepRecord) (start : DWord) : I (s.readSweep c r start).1 := by
  unfold State.readSweep
  split
  · exact h
  · split
    · exact k.deliver (k.updSeq h _) _ _
    · exact k.rest h rfl rfl

theorem readout (h : I s) (c : Option Port) : I (s.readout c).1 := by
  unfold State.readout
  dsimp only
  split
  · exact k.readSweep (k.updSeq h _) _ _ _
  all_goals exact k.rest h rfl rfl

theorem startSelected (h : I s) (r : SweepRecord) : I (s.startSelected r) := by
  have started : I (((s.readout none).1.updSeq fun q => { q with selected := none }).beginConversion (.sweep r)) :=
    k.updSeq (k.updSeq (k.readout h none) _) _
  unfold State.startSelected
  dsimp only
  refine k.handReport ?_ _
  split
  · unfold State.refill
    split <;> exact k.updSeq started _
  · exact started

theorem flushOrIdle (h : I s) (c : Option Port) : I (s.flushOrIdle c) := by
  unfold State.flushOrIdle
  split
  · exact k.handReport (k.updSeq (k.readout h c) _) _
  · exact k.updSeq h _

theorem afterRemoval (h : I s) (c : Option Port) : I (s.afterRemoval c) := by
  unfold State.afterRemoval
  split
  · exact k.flushOrIdle h c
  · exact h

theorem cutUnstarted (h : I s) (i : SlotId) : I (s.cutUnstarted i) := by
  have dropped := k.updSeq h Sequencer.dropSelected
  unfold State.cutUnstarted
  dsimp only
  split
  · refine k.countFree (k.countFree (k.takeReport ?_ _))
    split
    · exact k.takeReports (k.afterRemoval dropped none) _
    · exact k.afterRemoval dropped none
  · exact k.countFree (k.countFree (k.afterRemoval (k.takeReport dropped _) none))

theorem cutAfter (h : I s) (i : SlotId) (e : Nat) : I (s.cutAfter i e) := by
  have truncated : I (s.updSlot i fun x => { x with truncatedAt := some e }) := k.updSlot h i rfl rfl rfl
  unfold State.cutAfter
  dsimp only
  split
  · exact k.afterRemoval (k.updSeq truncated _) none
  · exact truncated

theorem cut (h : I s) (i : SlotId) : I (s.cut i) := by
  have forgot : I (s.forgetCut i) := k.rest h rfl rfl
  unfold State.cut State.takeCut
  dsimp only
  split
  · split
    · split
      · exact k.cutUnstarted forgot i
      · exact forgot
    · split
      · exact forgot
      · exact k.cutAfter forgot i _
  · exact h

theorem startConversion (h : I s) (w : ReportTaking) : I (s.startConversion w) := by
  unfold State.startConversion
  split
  · split
    · exact k.takeReportsWhen (k.startSelected h _) w
    · exact h
  · exact h

theorem endConversion (h : I s) (raw : Word) : I (s.endConversion raw) := by
  have ended : ∀ t : State, I t → I (let u := t.updSeq fun q =>
      { q with buffer := q.converting, converting := none, doneTimeout := none, converterCode := raw }
      if u.seq.selected.isNone then u.flushOrIdle none else u) := by
    intro t ht
    dsimp only
    split
    · exact k.flushOrIdle (k.updSeq ht _) none
    · exact k.updSeq ht _
  refine ended _ ?_
  split
  · exact k.raiseAll (k.updSeq h _) _
  · exact h

theorem converterDone (h : I s) (raw : Word) (w : ReportTaking) : I (s.converterDone raw w) := by
  unfold State.converterDone
  split
  · exact k.takeReportsWhen (k.endConversion h raw) w
  · exact h

theorem converterFault (h : I s) : I s.converterFault := by
  unfold State.converterFault
  exact foldl (I := I) (fun _ i h => k.endPosting h i _) _ (k.raiseAll (k.updSeq h _) _)

theorem doneTimeout (h : I s) : I s.doneTimeout := by
  unfold State.doneTimeout
  split
  · split
    · exact k.converterFault h
    · exact k.raiseAll (k.updSeq h _) _
    · exact h
  · exact h

theorem restartConverter (h : I s) : I s.restartConverter.1 := by
  unfold State.restartConverter
  split
  · exact k.rest h rfl rfl
  · exact h
  · exact h

/-! ### The arbiter -/

/-- The candidates that fail stay postings, and a winner reserves what its room check has found (R49, R50). -/
theorem grant (h : I s) : I s.grant := by
  by_cases hd : s.grantDue = true
  · obtain ⟨t, ⟨-, stalled⟩, e⟩ | ⟨t, i, made, e⟩ := State.grant_cases hd
    · exact e ▸ k.same _ _ (.of_stalled stalled fun j due => by simp [due]) h
    · have due := made.due
      have ht : I t := k.same _ _ (.of_stalled made.stalled fun j failed => by simp [failed.1]) h
      have room : t.RoomFor i := by
        obtain ⟨-, room, -, stalled⟩ := made
        exact (stalled.roomFor_iff i).mpr room
      rw [e]
      refine k.same _ _ (.grantTo due) ?_
      obtain none | ⟨q, policy, target, reserved⟩ := t.reserve_cases i
      · rw [none]
        exact ht
      · rw [reserved]
        exact k.reserve t i q due policy target (room.queue policy target) ht
  · unfold State.grant
    rw [if_neg hd]
    exact h

/-! ### A CLOSE, but for the port itself -/

theorem endPortPostings (h : I s) (p : Port) : I (s.endPortPostings p) := by
  unfold State.endPortPostings
  exact foldl (I := I) (fun _ i h => k.endPosting h i none) _ h

theorem leavePipeline (h : I s) (p : Port) : I (s.leavePipeline p) := by
  unfold State.leavePipeline
  dsimp only
  refine k.countFree ?_
  split
  · exact k.afterRemoval (k.updSeq h _) _
  · exact k.updSeq h _

theorem releaseTimers (h : I s) (p : Port) : I (s.releaseTimers p) := by
  refine foldl (I := I) (fun s n h => ?_) _ h
  split
  · exact k.rest h rfl rfl
  · exact h

theorem closing (h : I s) (p : Port) : I (s.closing p) :=
  k.releaseTimers (k.leavePipeline (k.endPortPostings (k.takeReports h _) p) p) p

theorem passMicrosecond (h : I s) : I s.passMicrosecond := by
  have timers : ∀ t : State, I t → I (allTimers.foldl (fun s n => s.updTimer n Timer.tick) t) := fun t =>
    foldl (I := I) (f := fun s n => s.updTimer n Timer.tick) (fun _ _ h => k.rest h rfl rfl) _
  have ports : ∀ t : State, I t → I (allPorts.foldl (fun s p => s.updPort p PortState.tick) t) := fun t =>
    foldl (I := I) (f := fun s p => s.updPort p PortState.tick) (fun _ p h => k.updPort h p (.tick _)) _
  unfold State.passMicrosecond
  split
  · exact h
  · exact k.rest (ports _ (timers { s with now := s.now + 1 } (k.rest h rfl rfl))) rfl rfl

end KeptByWork

/-! ### No work makes a posting -/

theorem State.slot_updRing_updSlot (s : State) (p : Port) (q : QueueId) (g : Ring → Ring) (i j : SlotId) (f : Slot → Slot) :
    ((s.updRing p q g).updSlot i f).slot j = if j = i then f (s.slot j) else s.slot j := State.slot_updSlot _ i j f

/-- The acquisition side makes no posting of an IDLE slot; a POST alone does (R9). -/
theorem keptByWork_idle (j : SlotId) : KeptByWork fun s => (s.slot j).state = .idle where
  same _ _ e h := (e.slot j).idle.mpr h
  push _ _ _ _ _ h := h
  replaceOldest _ _ _ _ _ _ h := h
  pushReserved s i q rec _ _ _ h := by
    rw [State.slot_updRing_updSlot]
    split <;> exact h
  usePlace s i _ h := by
    rw [State.slot_updSlot]
    split <;> exact h
  reserve s i q _ _ _ _ h := by
    rw [State.slot_updRing_updSlot]
    split <;> exact h
  ended s i _ h := by
    rw [State.slot_updPort, State.slot_updSlot]
    split
    · rfl
    · exact h

theorem State.idle_endPosting (s : State) (i : SlotId) (o : Option EndOutcome) :
    ((s.endPosting i o).slot i).state = .idle := by
  by_cases idle : (s.slot i).state = .idle
  · exact (keptByWork_idle i).endPosting idle i o
  · refine ((State.QueuesSame.endPosting idle o).slot i).idle.mpr ?_
    rw [State.slot_updPort, State.slot_updSlot_self]
    rfl

/-- When a CLOSE comes to its port, the port's postings have ended (R87). -/
theorem State.idle_closing (s : State) {p : Port} {i : SlotId} (own : slotOwner i = p) :
    ((s.closing p).slot i).state = .idle := by
  have k := keptByWork_idle i
  have ended : ∀ (l : List SlotId) (t : State), i ∈ l → ((l.foldl (fun s i => s.endPosting i none) t).slot i).state = .idle := by
    intro l
    induction l with
    | nil => exact fun _ h => absurd h List.not_mem_nil
    | cons j l ih =>
      intro t hi
      by_cases later : i ∈ l
      · exact ih _ later
      · obtain rfl := (List.mem_cons.mp hi).resolve_right later
        exact KeptByWork.foldl (I := fun s => (s.slot i).state = .idle) (fun _ j h => k.endPosting h j none) l
          (t.idle_endPosting i none)
  exact k.releaseTimers (k.leavePipeline (ended _ _ ((mem_portSlots p i).mpr own)) p) p

/-! ### The ports -/

/-- A port as OPEN leaves it: OPEN, with empty queues, latest-value slots and completion queue (R147). -/
def PortState.opened (ps : PortState) : PortState :=
  { (({ ps with mode := .opened } : PortState).emptySamples).presetTimeout with completions := [] }

theorem PortState.opened_mode (ps : PortState) : ps.opened.mode = .opened := by
  unfold PortState.opened
  rw [PortState.emptySamples_eq]
  rfl

theorem PortState.opened_config (ps : PortState) : ps.opened.config = ps.config := by
  unfold PortState.opened
  rw [PortState.emptySamples_eq]
  rfl

theorem PortState.opened_ring (ps : PortState) (q : QueueId) : ps.opened.ring q = Ring.empty := by
  unfold PortState.opened
  rw [PortState.emptySamples_eq]
  cases q <;> rfl

/-- What OPEN can do: nothing, or open a CLOSED port whose configuration is in range and whose queues fit the pool (R147). -/
theorem State.openPort_cases (s : State) (p : Port) :
    (s.openPort p).1 = s ∨ (s.port p).mode = .closed ∧ (s.port p).config.Valid ∧
      s.poolUse + (s.port p).poolShare ≤ 256 ∧ (s.openPort p).1 = s.updPort p PortState.opened := by
  unfold State.openPort
  dsimp only
  split
  · exact .inl rfl
  · next mode =>
    split
    · exact .inl rfl
    · next range =>
      split
      · exact .inl rfl
      · next pool =>
        refine .inr ⟨?_, (PortConfig.inRange_iff _).mp (by simpa using range), Nat.not_lt.mp pool, rfl⟩
        cases closed : (s.port p).mode with
        | closed => rfl
        | opened => exact absurd closed mode

/-- What every kind of work on queues, postings and ports has to keep for a property of states to be kept by every step. -/
structure KeptByPorts (I : State → Prop) : Prop extends KeptByWork I where
  shut : ∀ s p f, (f (s.port p)).mode = .closed →
    ((s.port p).mode = .opened → ∀ i, slotOwner i = p → (s.slot i).state = .idle) → I s → I (s.updPort p f)
  resetSlot : ∀ s i, (s.port (slotOwner i)).mode = .closed → I s → I (s.updSlot i fun _ => Slot.reset)
  slotFields : ∀ s i f, (s.slot i).state = .idle → I s → I (s.updSlot i fun x => { x with fields := f })
  opened : ∀ s p, (s.port p).mode = .closed → (s.port p).config.Valid → s.poolUse + (s.port p).poolShare ≤ 256 → I s →
    I (s.updPort p PortState.opened)
  posted : ∀ s i, (s.port (slotOwner i)).mode = .opened → (s.slot i).state = .idle →
    (s.port (slotOwner i)).PolicyUsable (s.slot i).fields → I s → I (s.updSlot i Slot.posted)
  release : ∀ s p q n, n ≤ ((s.port p).ring q).fill → I s →
    I (s.updRing p q (Ring.release ((s.port p).queueSize q) n))
  blank : ∀ s : State, (∀ p, (s.port p).mode = .closed) → (∀ i, s.slot i = Slot.reset) → I s

/-- A POST that is answered OK has passed the policy check (R6 check 7). -/
theorem State.policyUsable_of_postAnswer {s : State} {i : SlotId} (h : s.postAnswer i = .ok) :
    (s.port (slotOwner i)).PolicyUsable (s.slot i).fields := by
  classical
  rw [s.postAnswer_eq i] at h
  refine Classical.byContradiction fun unusable => ?_
  rw [if_pos unusable] at h
  (repeat' split at h) <;> cases h

namespace KeptByPorts
variable {I : State → Prop} (k : KeptByPorts I) {s : State}
include k

theorem openPort (h : I s) (p : Port) : I (s.openPort p).1 := by
  obtain e | ⟨mode, valid, pool, e⟩ := s.openPort_cases p
  · rw [e]
    exact h
  · rw [e]
    exact k.opened s p mode valid pool h

theorem closeEffects (h : I s) (p : Port) : I (s.closeEffects p) := by
  have left : I ((s.closing p).leaveLease p) := by
    obtain ⟨c, n, e⟩ := (s.closing p).leaveLease_eq p
    exact e ▸ k.rest (k.closing h p) rfl rfl
  rw [s.closeEffects_eq]
  exact k.shut _ p _ rfl (fun _ i own => by rw [State.slot_leaveLease]; exact s.idle_closing own) left

theorem portReset (h : I s) (p : Port) : I (s.portReset p) := by
  have cleared : ∀ u : State, I u → (u.port p).mode = .closed →
      I ((portSlots p).foldl (fun s i => s.updSlot i fun _ => Slot.reset) (u.updPort p PortState.clear)) := by
    intro u hu mode
    have clear : I (u.updPort p PortState.clear) :=
      k.shut u p _ rfl (fun opened => nomatch mode.symm.trans opened) hu
    have closed : ((u.updPort p PortState.clear).port p).mode = .closed := by
      rw [State.port_updPort_self]
      rfl
    refine (List.foldlRecOn (motive := fun t => I t ∧ (t.port p).mode = .closed) _ _ ⟨clear, closed⟩
      fun t ht i hi => ⟨k.resetSlot t i ?_ ht.1, ht.2⟩).1
    rw [(mem_portSlots p i).mp hi]
    exact ht.2
  unfold State.portReset
  dsimp only
  split
  · refine cleared _ (k.closeEffects h p) ?_
    rw [s.closeEffects_eq, State.port_updPort_self]
    rfl
  · next mode =>
    refine cleared s h ?_
    cases closed : (s.port p).mode with
    | closed => rfl
    | opened => exact absurd closed mode

theorem post (h : I s) {p : Port} (mode : (s.port p).mode = .opened) : I (s.post p).1 := by
  unfold State.post
  split
  · exact h
  · next i own =>
    dsimp only
    split
    · next answer =>
      have posted : I (s.updSlot i Slot.posted) := k.posted s i ((slotOwner_of_ownSlot own).symm ▸ mode)
        (State.idle_of_postAnswer answer) (State.policyUsable_of_postAnswer answer) h
      have referred : I ((s.updSlot i Slot.posted).addTimerRef (s.slot i).fields) ∧
          (((s.updSlot i Slot.posted).addTimerRef (s.slot i).fields).slot i).state = .armed := by
        have armed : ((s.updSlot i Slot.posted).slot i).state = .armed :=
          congrArg Slot.state (State.slot_updSlot_self s i _)
        unfold State.addTimerRef
        split
        · exact ⟨k.rest posted rfl rfl, armed⟩
        · exact ⟨posted, armed⟩
      show I (s.takePost i)
      unfold State.takePost
      dsimp only
      split
      · exact k.same _ _ (.makeDue (by simp [referred.2])) referred.1
      · exact referred.1
    · exact h

theorem ackQueue (h : I s) (p : Port) : I (s.ackQueue p).1 := by
  unfold State.ackQueue
  split
  · exact h
  · next q _ =>
    dsimp only
    split
    · next answer =>
      have inside := ((s.port p).ackAnswer_ok_iff q _).mp answer
      exact k.same _ _ (.returnStalled _ p q) (k.same _ _ (.updPort₂ s p (.acknowledge _ q _)) (k.release s p q _ inside h))
    · exact h

theorem popCompletion (h : I s) (p : Port) : I (s.popCompletion p).1 := by
  unfold State.popCompletion
  split
  · exact h
  · next rest _ => exact k.updPort (f := fun ps => { ps with completions := rest }) h p ⟨rfl, rfl, fun _ => rfl⟩

theorem takeLease (h : I s) (p : Port) : I (s.takeLease p).1 := by
  unfold State.takeLease
  dsimp only
  split
  · exact h
  · split
    · exact k.rest h rfl rfl
    · exact h

theorem dropLease (h : I s) : I s.dropLease := by
  obtain ⟨t, r, e, -⟩ := s.dropLease_eq
  exact e ▸ k.rest h rfl rfl

theorem leaseExpiry (h : I s) : I s.leaseExpiry := by
  obtain ⟨t, e, -⟩ := s.discardProvisional_eq
  unfold State.leaseExpiry
  rw [e]
  split
  · split
    · refine k.raise ?_ _ _
      exact k.rest h rfl rfl
    · exact h
  · exact h

theorem takeWriteReport (h : I s) (b : Bool) : I (s.takeWriteReport b) := by
  unfold State.takeWriteReport
  split
  · refine k.raise ?_ _ _
    exact k.rest h rfl rfl
  · refine k.raise ?_ _ _
    exact k.rest h rfl rfl
  all_goals exact h

theorem resetAll (s : State) (b : Bool) : I (s.resetAll b) :=
  k.blank _ (fun p => by cases p <;> rfl) fun _ => tget_replicate _ _

/-- What all this work keeps, every kind of work keeps. -/
theorem keptBySteps : KeptBySteps I where
  words _ _ e h := k.same _ _ (.of_coreSame e) h
  lineLow _ p _ h := k.updPort h p ⟨rfl, rfl, fun _ => rfl⟩
  slotFields := k.slotFields
  configuration s p a v mode h :=
    k.shut s p _ (((s.port p).mode_writeConfiguration a v).trans mode) (fun opened => nomatch mode.symm.trans opened) h
  openPort _ p h := k.openPort h p
  closeEffects _ p _ h := k.closeEffects h p
  portReset _ p h := k.portReset h p
  resetAll s b _ := k.resetAll s b
  post _ _ mode h := k.post h mode
  cancel _ p h := k.cancel h p
  deliverTriggers _ _ h := k.deliverTriggers h _
  trigger _ _ _ h := k.deliverTriggers h _
  ackQueue _ p h := k.ackQueue h p
  releaseSlots _ p h := k.updPort h p (.releaseLatest _ _)
  popCompletion _ p h := k.popCompletion h p
  claimTimer _ _ _ _ h := k.rest h rfl rfl
  setTimer _ _ _ _ h := k.rest h rfl rfl
  startTimer _ _ _ _ h := k.rest h rfl rfl
  stopTimer _ _ _ _ h := k.rest h rfl rfl
  releaseTimer _ _ h := k.rest h rfl rfl
  line _ _ _ h := k.rest h rfl rfl
  renew _ h := k.rest h rfl rfl
  takeLease _ p _ h := k.takeLease h p
  endLease _ h := k.dropLease h
  leaseExpiry _ h := k.leaseExpiry h
  setProvisional _ _ _ _ _ h := k.rest h rfl rfl
  dropProvisional _ _ h := k.rest h rfl rfl
  commitPending _ _ _ h := k.rest h rfl rfl
  fillCommit _ _ _ _ h := k.rest h rfl rfl
  store _ _ h := k.rest h rfl rfl
  restartConverter _ h := k.restartConverter h
  timerUnit _ _ h := k.rest h rfl rfl
  timerLoad _ _ _ h := k.rest h rfl rfl
  grant _ h := k.grant h
  startConversion _ w h := k.startConversion h w
  converterDone _ raw w h := k.converterDone h raw w
  takeFirstReport _ h := k.takeFirstReport h
  doneTimeout _ h := k.doneTimeout h
  cut _ i h := k.cut h i
  microsecond _ h := k.passMicrosecond h
  timeoutTick _ p h := k.updPort h p (.timeoutTick _)
  timeoutExpiry _ p h := k.updPort h p (.timeoutExpiry _)
  takeWriteReport _ b h := k.takeWriteReport h b
  installRecords _ _ h := k.rest h rfl rfl
  emptyCommit _ h := k.rest h rfl rfl

end KeptByPorts

end Sys2Proof.Machine
end

section
/-! SUPPORT. The receive queue pool (R142). No work but OPEN makes a port OPEN, and none changes an OPEN port's
configuration; OPEN has checked the ranges and the pool. -/
namespace Sys2Proof.Machine

theorem PortState.poolHeld_closed {ps : PortState} (h : ps.mode = .closed) : ps.poolHeld = 0 :=
  if_neg fun opened : ps.mode = .opened => nomatch h.symm.trans opened

theorem PortState.poolHeld_opened (ps : PortState) : ps.opened.poolHeld = ps.poolShare := by
  unfold PortState.poolHeld PortState.poolShare
  rw [ps.opened_config]
  exact if_pos ps.opened_mode

/-- A port that is OPEN only if it was, with the configuration that it had, takes no more of the pool. -/
theorem PortState.poolHeld_le {a b : PortState} (h : b.mode = .opened → a.mode = .opened ∧ b.config = a.config) :
    b.poolHeld ≤ a.poolHeld := by
  unfold PortState.poolHeld
  split
  · next opened =>
    obtain ⟨was, config⟩ := h opened
    rw [if_pos was]
    refine Nat.le_of_eq ?_
    unfold PortState.poolShare
    rw [config]
  · exact Nat.zero_le _

/-- OPEN adds the port's share to the pool's use (R142, R147). -/
theorem State.poolUse_opened (s : State) {p : Port} (closed : (s.port p).mode = .closed) :
    (s.updPort p PortState.opened).poolUse = s.poolUse + (s.port p).poolShare := by
  have before := PortState.poolHeld_closed closed
  have after := (s.port p).poolHeld_opened
  unfold State.poolUse
  simp only [State.port_updPort]
  cases p <;> simp only [reduceCtorEq, if_true, if_false] <;> omega

namespace State.PoolHolds
variable {s t : State}

/-- The pool holds on while no port becomes OPEN and no OPEN port changes its configuration. -/
theorem of_setup (h : s.PoolHolds)
    (setup : ∀ p, (t.port p).mode = .opened → (s.port p).mode = .opened ∧ (t.port p).config = (s.port p).config) :
    t.PoolHolds := by
  obtain ⟨use, valid⟩ := h
  have less := fun p => PortState.poolHeld_le (setup p)
  refine ⟨Nat.le_trans (Nat.add_le_add (Nat.add_le_add (less .a) (less .b)) (less .c)) use, fun p opened => ?_⟩
  obtain ⟨was, config⟩ := setup p opened
  exact config ▸ valid p was

theorem updPort (h : s.PoolHolds) (p : Port) {f : PortState → PortState}
    (setup : (f (s.port p)).mode = .opened → (s.port p).mode = .opened ∧ (f (s.port p)).config = (s.port p).config) :
    (s.updPort p f).PoolHolds := by
  refine h.of_setup fun q => ?_
  rw [State.port_updPort]
  split
  · next e => exact e ▸ setup
  · exact fun opened => ⟨opened, rfl⟩

theorem updRing (h : s.PoolHolds) (p : Port) (q : QueueId) (f : Ring → Ring) : (s.updRing p q f).PoolHolds :=
  h.updPort p fun opened => ⟨((s.port p).mode_updRing q f).symm.trans opened, (s.port p).config_updRing q f⟩

theorem updSlot (h : s.PoolHolds) (i : SlotId) (f : Slot → Slot) : (s.updSlot i f).PoolHolds := h

theorem giveBack (h : s.PoolHolds) (p : Port) (x : Slot) : (s.updPort p (PortState.giveBack x)).PoolHolds := by
  unfold PortState.giveBack
  split
  · exact h.updRing p _ _
  · exact h.updPort p fun opened => ⟨opened, rfl⟩

theorem opened (h : s.PoolHolds) {p : Port} (closed : (s.port p).mode = .closed) (valid : (s.port p).config.Valid)
    (room : s.poolUse + (s.port p).poolShare ≤ 256) : (s.updPort p PortState.opened).PoolHolds := by
  refine ⟨(s.poolUse_opened closed).symm ▸ room, fun q => ?_⟩
  rw [State.port_updPort]
  split
  · next e => exact fun _ => (s.port q).opened_config.symm ▸ e ▸ valid
  · exact h.2 q

theorem keptByPorts : KeptByPorts State.PoolHolds where
  same _ _ e h := h.of_setup fun p opened => ⟨(e.port p).mode.symm.trans opened, (e.port p).config⟩
  push _ p q _ _ h := h.updRing p q _
  replaceOldest _ p q _ _ _ h := h.updRing p q _
  pushReserved _ i q _ _ _ _ h := (h.updRing (slotOwner i) q _).updSlot i _
  usePlace _ i _ h := h.updSlot i _
  reserve _ i q _ _ _ _ h := (h.updRing (slotOwner i) q _).updSlot i _
  ended s i _ h := (h.updSlot i Slot.ended).giveBack (slotOwner i) (s.slot i)
  shut _ p _ closed _ h := h.updPort p fun opened => nomatch closed.symm.trans opened
  resetSlot _ i _ h := h.updSlot i _
  slotFields _ i _ _ h := h.updSlot i _
  opened _ _ closed valid room h := h.opened closed valid room
  posted _ i _ _ _ h := h.updSlot i _
  release _ p q _ _ h := h.updRing p q _
  blank s closed _ := by
    have none : ∀ p, (s.port p).poolHeld = 0 := fun p => PortState.poolHeld_closed (closed p)
    refine ⟨?_, fun p opened => nomatch (closed p).symm.trans opened⟩
    unfold State.poolUse
    rw [none, none, none]
    exact Nat.zero_le _

end State.PoolHolds

/-- Settles O53: what every kind of work keeps, every step keeps. -/
theorem stepKeepsPool : Obligations.StepKeepsPool := fun s t h e =>
  State.PoolHolds.keptByPorts.keptBySteps.step s t h e

end Sys2Proof.Machine
end

section
/-! SUPPORT. Fill, reserved and size of a queue (R131). An append has a free place or one of its own reservation, and a
reservation is made within the room, for a STALL request alone, whose queue is in BLOCKING mode (R8, R50). -/
namespace Sys2Proof.Machine

/-- Fill and reserved of a ring fit the queue's size, and an OVERWRITE queue holds no reservation. -/
def Ring.Fits (c : QueueConfig) (r : Ring) : Prop :=
  r.fill + r.reserved ≤ c.size.toNat ∧ (c.mode = 1 → r.reserved = 0)

namespace Ring.Fits
variable {c : QueueConfig} {r : Ring}

theorem empty (c : QueueConfig) : Ring.empty.Fits c := ⟨Nat.zero_le _, fun _ => rfl⟩

theorem push (h : r.Fits c) (room : r.fill < c.size.toNat) (takes : c.mode = 1 ∨ r.fill + r.reserved < c.size.toNat)
    (rec : SampleRecord) : (r.push c.size.toNat false rec).Fits c := by
  obtain ⟨-, unreserved⟩ := h
  refine ⟨?_, unreserved⟩
  show r.fill + 1 + r.reserved ≤ c.size.toNat
  obtain mode | free := takes
  · rw [unreserved mode]
    exact room
  · omega

theorem pushReserved (h : r.Fits c) (room : r.fill < c.size.toNat) (rec : SampleRecord) :
    (r.push c.size.toNat true rec).Fits c := by
  obtain ⟨fits, unreserved⟩ := h
  constructor
  · show r.fill + 1 + (r.reserved - 1) ≤ c.size.toNat
    omega
  · intro mode
    show r.reserved - 1 = 0
    rw [unreserved mode]

theorem replaceOldest (h : r.Fits c) (size : Nat) (rec : SampleRecord) : (r.replaceOldest size rec).Fits c := h

theorem release (h : r.Fits c) (size n : Nat) : (r.release size n).Fits c :=
  ⟨Nat.le_trans (Nat.add_le_add_right (Nat.sub_le _ _) _) h.1, h.2⟩

theorem giveBack (h : r.Fits c) (n : Nat) : ({ r with reserved := r.reserved - n } : Ring).Fits c :=
  ⟨Nat.le_trans (Nat.add_le_add_left (Nat.sub_le _ _) _) h.1, fun mode => by
    show r.reserved - n = 0
    rw [h.2 mode, Nat.zero_sub]⟩

theorem reserveScan (h : r.Fits c) {x : Slot} (blocking : c.mode ≠ 1)
    (room : x.fields.scanLength.toNat ≤ c.size.toNat - r.fill - r.reserved) : (r.reserveScan x).Fits c := by
  obtain ⟨fits, -⟩ := h
  refine ⟨?_, fun mode => absurd mode blocking⟩
  show r.fill + (r.reserved + x.fields.scanLength.toNat) ≤ c.size.toNat
  omega

end Ring.Fits

theorem PortState.policyUsable_congr {a b : PortState} (h : b.config = a.config) (f : SlotFields) :
    b.PolicyUsable f ↔ a.PolicyUsable f := by
  unfold PortState.PolicyUsable
  rw [h]

theorem PortState.queueConfig_congr {a b : PortState} (h : b.config = a.config) (q : QueueId) :
    b.queueConfig q = a.queueConfig q := by
  unfold PortState.queueConfig
  rw [h]

/-- A STALL posting's target is a queue in BLOCKING mode (R8). -/
theorem PortState.PolicyUsable.blocking {ps : PortState} {f : SlotFields} (h : ps.PolicyUsable f)
    (policy : f.policy.toNat = 1) {q : QueueId} (target : f.target.toNat = queueCode q) : (ps.queueConfig q).mode ≠ 1 := by
  obtain ⟨code, mode, -⟩ | ⟨code, mode, -⟩ := h policy
  · obtain rfl : q = .q0 := queueCode_inj (target.symm.trans code)
    exact mode
  · obtain rfl : q = .q1 := queueCode_inj (target.symm.trans code)
    exact mode

namespace State.RoomHolds
variable {s t : State}

theorem of_parts (postings : ∀ i, (s.slot i).state ≠ .idle → (s.port (slotOwner i)).mode = .opened ∧
      (s.port (slotOwner i)).PolicyUsable (s.slot i).fields)
    (fits : ∀ p q, (s.port p).mode = .opened → ((s.port p).ring q).Fits ((s.port p).queueConfig q)) : s.RoomHolds :=
  ⟨postings, fits⟩

theorem mode (h : s.RoomHolds) {i : SlotId} (active : (s.slot i).state ≠ .idle) :
    (s.port (slotOwner i)).mode = .opened := (h.1 i active).1

theorem usable (h : s.RoomHolds) {i : SlotId} (active : (s.slot i).state ≠ .idle) :
    (s.port (slotOwner i)).PolicyUsable (s.slot i).fields := (h.1 i active).2

theorem fits (h : s.RoomHolds) {p : Port} (opened : (s.port p).mode = .opened) (q : QueueId) :
    ((s.port p).ring q).Fits ((s.port p).queueConfig q) := h.2 p q opened

theorem queuesSame (h : s.RoomHolds) (e : s.QueuesSame t) : t.RoomHolds := by
  refine of_parts (fun i active => ?_) fun p q opened => ?_
  · have was : (s.slot i).state ≠ .idle := fun idle => active ((e.slot i).idle.mpr idle)
    rw [(e.port _).mode, PortState.policyUsable_congr (e.port _).config, (e.slot i).fields]
    exact ⟨h.mode was, h.usable was⟩
  · rw [(e.port p).ring, PortState.queueConfig_congr (e.port p).config]
    exact h.fits ((e.port p).mode.symm.trans opened) q

/-- Work on one ring of a port that leaves the ring fitting. -/
theorem updRing (h : s.RoomHolds) {p : Port} {q : QueueId} {f : Ring → Ring}
    (hf : (s.port p).mode = .opened → (f ((s.port p).ring q)).Fits ((s.port p).queueConfig q)) :
    (s.updRing p q f).RoomHolds := by
  refine of_parts (fun i active => ?_) fun r q' opened => ?_
  · rw [State.mode_updRing, PortState.policyUsable_congr (s.config_updRing p q f _)]
    exact ⟨h.mode active, h.usable active⟩
  · rw [State.mode_updRing] at opened
    rw [PortState.queueConfig_congr (s.config_updRing p q f r), State.ring_updRing]
    split
    · next same =>
      obtain ⟨rfl, rfl⟩ := same
      exact hf opened
    · exact h.fits opened q'

/-- A slot becomes or stays a posting only where its port is OPEN and its policy usable. -/
theorem updSlot (h : s.RoomHolds) {i : SlotId} {f : Slot → Slot}
    (hf : (f (s.slot i)).state ≠ .idle → (s.port (slotOwner i)).mode = .opened ∧
      (s.port (slotOwner i)).PolicyUsable (f (s.slot i)).fields) : (s.updSlot i f).RoomHolds := by
  refine of_parts (fun j => ?_) fun p q opened => h.fits opened q
  rw [State.slot_updSlot]
  split
  · next e => exact e ▸ hf
  · exact fun active => ⟨h.mode active, h.usable active⟩

/-- An update that leaves a slot's fields and its state. -/
theorem updSlot_same (h : s.RoomHolds) {i : SlotId} {f : Slot → Slot} (fields : (f (s.slot i)).fields = (s.slot i).fields)
    (state : (f (s.slot i)).state = (s.slot i).state) : (s.updSlot i f).RoomHolds :=
  h.updSlot (by rw [fields, state]; exact fun active => ⟨h.mode active, h.usable active⟩)

theorem giveBack (h : s.RoomHolds) (p : Port) (x : Slot) : (s.updPort p (PortState.giveBack x)).RoomHolds := by
  unfold PortState.giveBack
  split
  · exact h.updRing fun opened => (h.fits opened _).giveBack _
  · rwa [State.updPort_id rfl]

theorem shut (h : s.RoomHolds) {p : Port} {f : PortState → PortState} (closed : (f (s.port p)).mode = .closed)
    (ended : (s.port p).mode = .opened → ∀ i, slotOwner i = p → (s.slot i).state = .idle) :
    (s.updPort p f).RoomHolds := by
  refine of_parts (fun i active => ?_) fun r q => ?_
  · have elsewhere : slotOwner i ≠ p := fun own => active (ended (own ▸ h.mode active) i own)
    rw [State.port_updPort, if_neg elsewhere]
    exact ⟨h.mode active, h.usable active⟩
  · rw [State.port_updPort]
    split
    · next e => exact fun opened => nomatch (e ▸ closed).symm.trans opened
    · exact fun opened => h.fits opened q

theorem opened (h : s.RoomHolds) {p : Port} (closed : (s.port p).mode = .closed) :
    (s.updPort p PortState.opened).RoomHolds := by
  refine of_parts (fun i active => ?_) fun r q => ?_
  · have elsewhere : slotOwner i ≠ p := fun own => by
      have opened := h.mode active
      rw [own, closed] at opened
      cases opened
    rw [State.port_updPort, if_neg elsewhere]
    exact ⟨h.mode active, h.usable active⟩
  · rw [State.port_updPort]
    split
    · exact fun _ => PortState.opened_ring _ q ▸ .empty _
    · exact fun opened => h.fits opened q

theorem keptByPorts : KeptByPorts State.RoomHolds where
  same _ _ e h := h.queuesSame e
  push _ _ q rec takes h := h.updRing fun opened => (h.fits opened q).push takes.1 takes.2 rec
  replaceOldest _ _ q rec _ _ h := h.updRing fun opened => (h.fits opened q).replaceOldest _ rec
  pushReserved _ _ q rec _ _ room h :=
    updSlot_same (h.updRing fun opened => (h.fits opened q).pushReserved room rec) rfl rfl
  usePlace _ _ _ h := h.updSlot_same rfl rfl
  reserve _ _ q due policy target room h := by
    have usable := h.usable (by rw [due]; nofun)
    exact updSlot_same (h.updRing fun opened => (h.fits opened q).reserveScan (usable.blocking policy target) room) rfl rfl
  ended s i _ h := (h.updSlot fun active => absurd rfl active).giveBack (slotOwner i) (s.slot i)
  shut _ _ _ closed ended h := h.shut closed ended
  resetSlot _ _ _ h := h.updSlot fun active => absurd rfl active
  slotFields _ _ _ idle h := h.updSlot fun active => absurd idle active
  opened _ _ closed _ _ h := h.opened closed
  posted _ _ opened _ usable h := h.updSlot fun _ => ⟨opened, usable⟩
  release _ _ q n _ h := h.updRing fun opened => (h.fits opened q).release _ n
  blank _ closed blank := of_parts (fun i active => absurd (congrArg Slot.state (blank i)) active)
    fun p _ opened => nomatch (closed p).symm.trans opened

end State.RoomHolds

/-- Settles O56: what every kind of work keeps, every step keeps. -/
theorem stepKeepsRoom : Obligations.StepKeepsRoom := fun s t h e =>
  State.RoomHolds.keptByPorts.keptBySteps.step s t h e

end Sys2Proof.Machine
end

section
/-! SUPPORT. The rings (R131): what each kind of work on a ring does to its indexes, and how what the postings hold of a
queue changes with one slot. -/
namespace Sys2Proof.Machine

/-! ### Indexes -/

theorem nextIndex_eq {size i : Nat} (h : i < size) : nextIndex size i = (i + 1) % size := by
  unfold nextIndex
  split
  · next inside => exact (Nat.mod_eq_of_lt inside).symm
  · next last =>
    rw [show i + 1 = size by omega, Nat.mod_self]

/-- A ring in shape: fill within the size, both indexes below it, and put fill places after get (R131). -/
def Ring.InShape (size : Nat) (r : Ring) : Prop :=
  r.fill ≤ size ∧ (size = 0 → r.put = 0 ∧ r.get = 0) ∧ (0 < size → r.get < size ∧ r.put = (r.get + r.fill) % size)

namespace Ring.InShape
variable {size : Nat} {r : Ring}

/-- A ring of a queue that has places is in shape by its indexes alone. -/
theorem of_sized (sized : 0 < size) (fill : r.fill ≤ size) (get : r.get < size) (put : r.put = (r.get + r.fill) % size) :
    r.InShape size := ⟨fill, fun zero => absurd zero (Nat.ne_of_gt sized), fun _ => ⟨get, put⟩⟩

theorem empty (size : Nat) : Ring.empty.InShape size :=
  ⟨Nat.zero_le _, fun _ => ⟨rfl, rfl⟩, fun sized => ⟨sized, (Nat.zero_mod _).symm⟩⟩

/-- The shape does not depend on the reserved count. -/
theorem reserve (h : r.InShape size) (n : Nat) : ({ r with reserved := n } : Ring).InShape size := h

theorem push (h : r.InShape size) (room : r.fill < size) (reserved : Bool) (rec : SampleRecord) :
    (r.push size reserved rec).InShape size := by
  have sized : 0 < size := Nat.zero_lt_of_lt room
  obtain ⟨-, -, indexes⟩ := h
  obtain ⟨get, put⟩ := indexes sized
  refine of_sized sized room get ?_
  have inside : r.put < size := put ▸ Nat.mod_lt _ sized
  calc nextIndex size r.put = (r.put + 1) % size := nextIndex_eq inside
    _ = (r.get + r.fill + 1) % size := by rw [put, Nat.mod_add_mod]

theorem replaceOldest (h : r.InShape size) (sized : 0 < size) (rec : SampleRecord) :
    (r.replaceOldest size rec).InShape size := by
  obtain ⟨fill, -, indexes⟩ := h
  obtain ⟨get, put⟩ := indexes sized
  have inside : r.put < size := put ▸ Nat.mod_lt _ sized
  have next : nextIndex size r.get = (r.get + 1) % size := nextIndex_eq get
  have below : nextIndex size r.get < size := next ▸ Nat.mod_lt _ sized
  refine of_sized sized fill below ?_
  calc nextIndex size r.put = (r.put + 1) % size := nextIndex_eq inside
    _ = (r.get + r.fill + 1) % size := by rw [put, Nat.mod_add_mod]
    _ = (r.get + 1 + r.fill) % size := by rw [Nat.add_right_comm]
    _ = (nextIndex size r.get + r.fill) % size := by rw [next, Nat.mod_add_mod]

theorem release (h : r.InShape size) {n : Nat} (inside : n ≤ r.fill) : (r.release size n).InShape size := by
  obtain ⟨fill, sizeless, indexes⟩ := h
  obtain rfl | sized := Nat.eq_zero_or_pos size
  · obtain ⟨put, get⟩ := sizeless rfl
    obtain rfl : n = 0 := by omega
    refine ⟨fill, fun _ => ⟨put, ?_⟩, fun sized => absurd sized (Nat.lt_irrefl 0)⟩
    show (r.get + 0) % 0 = 0
    rw [get]
  · obtain ⟨-, put⟩ := indexes sized
    refine of_sized sized (Nat.le_trans (Nat.sub_le _ _) fill) (Nat.mod_lt _ sized) ?_
    show r.put = ((r.get + n) % size + (r.fill - n)) % size
    rw [put, Nat.mod_add_mod, Nat.add_assoc, Nat.add_sub_cancel' inside]

end Ring.InShape

theorem PortState.queueSize_congr {a b : PortState} (h : b.config = a.config) (q : QueueId) :
    b.queueSize q = a.queueSize q := congrArg (fun c => c.size.toNat) (PortState.queueConfig_congr h q)

/-! ### What the postings hold of a queue (R134) -/

/-- What slot `x` holds of queue `q`. -/
def Slot.heldFor (q : QueueId) (x : Slot) : Nat := if x.fields.target.toNat = queueCode q then x.held else 0

theorem Slot.heldFor_congr {x y : Slot} (fields : y.fields = x.fields) (held : y.held = x.held) (q : QueueId) :
    y.heldFor q = x.heldFor q := by
  unfold Slot.heldFor
  rw [fields, held]

theorem Slot.heldFor_none {x : Slot} (h : x.held = 0) (q : QueueId) : x.heldFor q = 0 := by
  unfold Slot.heldFor
  rw [h, ite_self]

theorem Slot.heldFor_elsewhere {x : Slot} {q : QueueId} (h : x.fields.target.toNat ≠ queueCode q) : x.heldFor q = 0 :=
  if_neg h

theorem Slot.heldFor_target {x : Slot} {q : QueueId} (h : x.fields.target.toNat = queueCode q) : x.heldFor q = x.held :=
  if_pos h

theorem State.heldIn_eq (s : State) (p : Port) (q : QueueId) :
    s.heldIn p q = ((portSlots p).map fun i => (s.slot i).heldFor q).sum := by
  cases q <;> rfl

theorem State.heldIn_congr {s t : State} {p : Port} {q : QueueId}
    (h : ∀ i, slotOwner i = p → (t.slot i).heldFor q = (s.slot i).heldFor q) : t.heldIn p q = s.heldIn p q := by
  rw [State.heldIn_eq, State.heldIn_eq]
  exact congrArg List.sum (List.map_congr_left fun i hi => h i ((mem_portSlots p i).mp hi))

theorem State.heldIn_zero {s : State} {p : Port} (q : QueueId) (h : ∀ i, slotOwner i = p → (s.slot i).held = 0) :
    s.heldIn p q = 0 := by
  rw [State.heldIn_eq]
  refine List.sum_eq_zero_iff_forall_eq_nat.mpr fun n hn => ?_
  obtain ⟨i, hi, rfl⟩ := List.mem_map.mp hn
  exact Slot.heldFor_none (h i ((mem_portSlots p i).mp hi)) q

theorem nodup_portSlots (p : Port) : (portSlots p).Nodup := nodup_allSlots.filter _

/-- What the postings of a port hold of a queue: what one of them holds and what the others hold. -/
theorem State.heldIn_eq_add (s : State) (i : SlotId) (q : QueueId) :
    s.heldIn (slotOwner i) q =
      (s.slot i).heldFor q + (((portSlots (slotOwner i)).erase i).map fun j => (s.slot j).heldFor q).sum := by
  rw [State.heldIn_eq]
  exact ((List.perm_cons_erase ((mem_portSlots (slotOwner i) i).mpr rfl)).map _).sum_nat.trans List.sum_cons

/-- One slot's change is the change of the sum at its port. -/
theorem State.heldIn_updSlot (s : State) (i : SlotId) (f : Slot → Slot) (q : QueueId) :
    (s.updSlot i f).heldIn (slotOwner i) q + (s.slot i).heldFor q =
      s.heldIn (slotOwner i) q + (f (s.slot i)).heldFor q := by
  have others : (((portSlots (slotOwner i)).erase i).map fun j => ((s.updSlot i f).slot j).heldFor q) =
      ((portSlots (slotOwner i)).erase i).map fun j => (s.slot j).heldFor q := List.map_congr_left fun j hj => by
    rw [State.slot_updSlot, if_neg ((nodup_portSlots _).mem_erase_iff.mp hj).1]
  rw [State.heldIn_eq_add, s.heldIn_eq_add, others, State.slot_updSlot_self]
  omega

/-- A slot's change leaves the sums at the other ports. -/
theorem State.heldIn_updSlot_ne (s : State) {i : SlotId} {p : Port} (h : p ≠ slotOwner i) (f : Slot → Slot) (q : QueueId) :
    (s.updSlot i f).heldIn p q = s.heldIn p q :=
  State.heldIn_congr fun j own => by rw [State.slot_updSlot, if_neg fun e : j = i => h (e ▸ own).symm]

theorem State.heldFor_le_heldIn (s : State) (i : SlotId) (q : QueueId) :
    (s.slot i).heldFor q ≤ s.heldIn (slotOwner i) q := by
  rw [s.heldIn_eq_add]
  exact Nat.le_add_right _ _

/-! ### The return of a reservation, by the posting's target -/

theorem PortState.giveBack_of_target {x : Slot} {q : QueueId} (target : x.fields.target.toNat = queueCode q) :
    PortState.giveBack x = fun ps => ps.updRing q fun r => { r with reserved := r.reserved - x.held } := by
  funext ps
  unfold PortState.giveBack
  rw [(x.fields.targetOf_queueCode q).mpr target]

theorem PortState.giveBack_of_elsewhere {x : Slot} (nowhere : ∀ q, x.fields.target.toNat ≠ queueCode q) :
    PortState.giveBack x = id := by
  funext ps
  unfold PortState.giveBack
  split
  · next q code => exact absurd ((x.fields.targetOf_queueCode q).mp code) (nowhere q)
  · rfl

/-! ### The invariant -/

namespace State.RingsHold
variable {s t : State}

theorem of_parts (closed : ∀ i, (s.port (slotOwner i)).mode = .closed → (s.slot i).state = .idle)
    (empty : ∀ i, (s.slot i).state = .idle → (s.slot i).held = 0)
    (valid : ∀ p, (s.port p).mode = .opened → (s.port p).config.Valid)
    (shape : ∀ p, (s.port p).mode = .opened → ∀ q, ((s.port p).ring q).InShape ((s.port p).queueSize q))
    (reserved : ∀ p, (s.port p).mode = .opened → ∀ q, ((s.port p).ring q).reserved = s.heldIn p q) : s.RingsHold := by
  refine ⟨closed, empty, fun p opened => ⟨valid p opened, fun q => ?_⟩⟩
  obtain ⟨fill, sizeless, indexes⟩ := shape p opened q
  exact ⟨fill, sizeless, indexes, reserved p opened q⟩

theorem closed (h : s.RingsHold) {i : SlotId} (mode : (s.port (slotOwner i)).mode = .closed) :
    (s.slot i).state = .idle := h.1 i mode

theorem empty (h : s.RingsHold) {i : SlotId} (idle : (s.slot i).state = .idle) : (s.slot i).held = 0 := h.2.1 i idle

theorem valid (h : s.RingsHold) {p : Port} (opened : (s.port p).mode = .opened) : (s.port p).config.Valid :=
  (h.2.2 p opened).1

theorem shape (h : s.RingsHold) {p : Port} (opened : (s.port p).mode = .opened) (q : QueueId) :
    ((s.port p).ring q).InShape ((s.port p).queueSize q) := by
  obtain ⟨fill, sizeless, indexes, -⟩ := (h.2.2 p opened).2 q
  exact ⟨fill, sizeless, indexes⟩

theorem reserved (h : s.RingsHold) {p : Port} (opened : (s.port p).mode = .opened) (q : QueueId) :
    ((s.port p).ring q).reserved = s.heldIn p q := by
  obtain ⟨-, -, -, reserved⟩ := (h.2.2 p opened).2 q
  exact reserved

theorem queuesSame (h : s.RingsHold) (e : s.QueuesSame t) : t.RingsHold := by
  have was : ∀ {p}, (t.port p).mode = .opened → (s.port p).mode = .opened := fun {p} => (e.port p).mode.symm.trans
  refine of_parts (fun i mode => ?_) (fun i idle => ?_) (fun p opened => ?_) (fun p opened q => ?_) fun p opened q => ?_
  · exact (e.slot i).idle.mpr (h.closed ((e.port _).mode.symm.trans mode))
  · exact (e.slot i).held.trans (h.empty ((e.slot i).idle.mp idle))
  · exact (e.port p).config.symm ▸ h.valid (was opened)
  · rw [(e.port p).ring, PortState.queueSize_congr (e.port p).config]
    exact h.shape (was opened) q
  · rw [(e.port p).ring, h.reserved (was opened)]
    exact (State.heldIn_congr fun i _ => Slot.heldFor_congr (e.slot i).fields (e.slot i).held q).symm

/-- Work on one ring that leaves it in shape and its reserved count as it was. -/
theorem updRing (h : s.RingsHold) {p : Port} {q : QueueId} {f : Ring → Ring}
    (shape : (s.port p).mode = .opened → (f ((s.port p).ring q)).InShape ((s.port p).queueSize q))
    (reserved : (f ((s.port p).ring q)).reserved = ((s.port p).ring q).reserved) : (s.updRing p q f).RingsHold := by
  have was : ∀ {r}, ((s.updRing p q f).port r).mode = .opened → (s.port r).mode = .opened :=
    fun {r} => (s.mode_updRing p q f r).symm.trans
  refine of_parts (fun i mode => ?_) (fun i => h.empty) (fun r opened => ?_) (fun r opened q' => ?_) fun r opened q' => ?_
  · exact h.closed ((s.mode_updRing p q f _).symm.trans mode)
  · exact (s.config_updRing p q f r).symm ▸ h.valid (was opened)
  · rw [PortState.queueSize_congr (s.config_updRing p q f r), State.ring_updRing]
    split
    · next same =>
      obtain ⟨rfl, rfl⟩ := same
      exact shape (was opened)
    · exact h.shape (was opened) q'
  · refine Eq.trans ?_ (h.reserved (was opened) q')
    rw [State.ring_updRing]
    split
    · next same =>
      obtain ⟨rfl, rfl⟩ := same
      exact reserved
    · rfl

/-- Work on one slot that leaves what it holds of each queue. -/
theorem updSlot (h : s.RingsHold) {i : SlotId} {f : Slot → Slot}
    (closed : (s.port (slotOwner i)).mode = .closed → (f (s.slot i)).state = .idle)
    (empty : (f (s.slot i)).state = .idle → (f (s.slot i)).held = 0)
    (held : ∀ q, (f (s.slot i)).heldFor q = (s.slot i).heldFor q) : (s.updSlot i f).RingsHold := by
  refine of_parts (fun j => ?_) (fun j => ?_) (fun p => h.valid) (fun p => h.shape) fun p opened q => ?_
  · rw [State.slot_updSlot]
    split
    · next e => exact e ▸ closed
    · exact h.closed
  · rw [State.slot_updSlot]
    split
    · next e => exact e ▸ empty
    · exact h.empty
  · refine (h.reserved opened q).trans (State.heldIn_congr fun j _ => ?_).symm
    rw [State.slot_updSlot]
    split
    · next e => exact e ▸ held q
    · rfl

/-- Work on one slot and on the ring of its target queue: the reserved count changes with what the slot holds. -/
theorem updHeld (h : s.RingsHold) {i : SlotId} {q : QueueId} {f : Ring → Ring} {g : Slot → Slot}
    (target : (s.slot i).fields.target.toNat = queueCode q) (fields : (g (s.slot i)).fields = (s.slot i).fields)
    (closed : (s.slot i).state = .idle → (g (s.slot i)).state = .idle)
    (empty : (g (s.slot i)).state = .idle → (g (s.slot i)).held = 0)
    (shape : (s.port (slotOwner i)).mode = .opened →
      (f ((s.port (slotOwner i)).ring q)).InShape ((s.port (slotOwner i)).queueSize q))
    (reserved : (s.slot i).held ≤ ((s.port (slotOwner i)).ring q).reserved →
      (f ((s.port (slotOwner i)).ring q)).reserved + (s.slot i).held =
        ((s.port (slotOwner i)).ring q).reserved + (g (s.slot i)).held) :
    ((s.updRing (slotOwner i) q f).updSlot i g).RingsHold := by
  have was : ∀ {r}, ((s.updRing (slotOwner i) q f).port r).mode = .opened → (s.port r).mode = .opened :=
    fun {r} => (s.mode_updRing (slotOwner i) q f r).symm.trans
  have slot := fun j => State.slot_updRing_updSlot s (slotOwner i) q f i j g
  refine of_parts (fun j mode => ?_) (fun j => ?_) (fun r opened => ?_) (fun r opened q' => ?_) fun r opened q' => ?_
  · have idle := h.closed ((s.mode_updRing (slotOwner i) q f _).symm.trans mode)
    rw [slot]
    split
    · next e => exact e ▸ closed (e ▸ idle)
    · exact idle
  · rw [slot]
    split
    · next e => exact e ▸ empty
    · exact h.empty
  · exact (s.config_updRing (slotOwner i) q f r).symm ▸ h.valid (was opened)
  · show (((s.updRing (slotOwner i) q f).port r).ring q').InShape
      (((s.updRing (slotOwner i) q f).port r).queueSize q')
    rw [PortState.queueSize_congr (s.config_updRing (slotOwner i) q f r), State.ring_updRing]
    split
    · next same =>
      obtain ⟨rfl, rfl⟩ := same
      exact shape (was opened)
    · exact h.shape (was opened) q'
  · have total := h.reserved (was opened) q'
    show (((s.updRing (slotOwner i) q f).port r).ring q').reserved = (s.updSlot i g).heldIn r q'
    rw [State.ring_updRing]
    by_cases own : r = slotOwner i
    · subst own
      have changed := s.heldIn_updSlot i g q'
      by_cases queue : q' = q
      · subst queue
        have part := s.heldFor_le_heldIn i q'
        rw [Slot.heldFor_target target] at part changed
        rw [Slot.heldFor_target (fields ▸ target)] at changed
        rw [if_pos ⟨rfl, rfl⟩]
        have counted := reserved (total ▸ part)
        omega
      · have elsewhere : (s.slot i).fields.target.toNat ≠ queueCode q' := fun code =>
          queue (queueCode_inj (code.symm.trans target))
        rw [Slot.heldFor_elsewhere elsewhere, Slot.heldFor_elsewhere (fields.symm ▸ elsewhere)] at changed
        rw [if_neg fun same => queue same.2]
        exact total.trans changed.symm
    · rw [if_neg fun same => own same.1, State.heldIn_updSlot_ne s own]
      exact total

theorem ended (h : s.RingsHold) (i : SlotId) :
    ((s.updSlot i Slot.ended).updPort (slotOwner i) (PortState.giveBack (s.slot i))).RingsHold := by
  by_cases target : ∃ q, (s.slot i).fields.target.toNat = queueCode q
  · obtain ⟨q, target⟩ := target
    rw [PortState.giveBack_of_target target]
    exact h.updHeld (f := fun r => { r with reserved := r.reserved - (s.slot i).held }) (g := Slot.ended) target rfl
      (fun _ => rfl) (fun _ => rfl) (fun opened => (h.shape opened q).reserve _) Nat.sub_add_cancel
  · have nowhere : ∀ q, (s.slot i).fields.target.toNat ≠ queueCode q := fun q code => target ⟨q, code⟩
    rw [PortState.giveBack_of_elsewhere nowhere, State.updPort_id rfl]
    exact h.updSlot (fun _ => rfl) (fun _ => rfl) fun q =>
      (Slot.heldFor_none rfl q).trans (Slot.heldFor_elsewhere (nowhere q)).symm

theorem shut (h : s.RingsHold) {p : Port} {f : PortState → PortState} (closed : (f (s.port p)).mode = .closed)
    (ended : (s.port p).mode = .opened → ∀ i, slotOwner i = p → (s.slot i).state = .idle) :
    (s.updPort p f).RingsHold := by
  have other : ∀ {r}, ((s.updPort p f).port r).mode = .opened → (s.updPort p f).port r = s.port r := fun {r} => by
    rw [State.port_updPort]
    split
    · next e => exact fun opened => nomatch (e ▸ closed).symm.trans opened
    · exact fun _ => rfl
  refine of_parts (fun i => ?_) (fun i => h.empty) (fun r opened => ?_) (fun r opened => ?_) fun r opened => ?_
  · rw [State.port_updPort]
    split
    · next own =>
      cases was : (s.port p).mode with
      | opened => exact fun _ => ended was i own
      | closed => exact fun _ => h.closed (own ▸ was)
    · exact h.closed
  · have same := other opened
    rw [same] at opened ⊢
    exact h.valid opened
  · have same := other opened
    rw [same] at opened ⊢
    exact h.shape opened
  · have same := other opened
    rw [same] at opened ⊢
    exact h.reserved opened

theorem opened (h : s.RingsHold) {p : Port} (closed : (s.port p).mode = .closed) (valid : (s.port p).config.Valid) :
    (s.updPort p PortState.opened).RingsHold := by
  refine of_parts (fun i => ?_) (fun i => h.empty) (fun r => ?_) (fun r => ?_) fun r => ?_
  · rw [State.port_updPort]
    split
    · exact fun shut => nomatch (PortState.opened_mode _).symm.trans shut
    · exact h.closed
  · rw [State.port_updPort]
    split
    · next e => exact fun _ => (s.port r).opened_config.symm ▸ e ▸ valid
    · exact h.valid
  · rw [State.port_updPort]
    split
    · exact fun _ q => PortState.opened_ring _ q ▸ .empty _
    · exact h.shape
  · rw [State.port_updPort]
    split
    · next e =>
      intro _ q
      rw [PortState.opened_ring]
      exact (State.heldIn_zero (s := s) q fun i own => h.empty (h.closed ((own.trans e).symm ▸ closed))).symm
    · exact h.reserved

/-- A slot that takes an IDLE posting's place in any state: what it holds is nothing, before and after. -/
theorem updSlot_idle (h : s.RingsHold) {i : SlotId} {f : Slot → Slot} (idle : (s.slot i).state = .idle)
    (closed : (s.port (slotOwner i)).mode = .closed → (f (s.slot i)).state = .idle) (held : (f (s.slot i)).held = 0) :
    (s.updSlot i f).RingsHold :=
  h.updSlot closed (fun _ => held) fun q => (Slot.heldFor_none held q).trans (Slot.heldFor_none (h.empty idle) q).symm

theorem keptByPorts : KeptByPorts State.RingsHold where
  same _ _ e h := h.queuesSame e
  push _ _ q rec takes h := h.updRing (fun opened => (h.shape opened q).push takes.1 false rec) rfl
  replaceOldest _ _ q rec sized _ h := h.updRing (fun opened => (h.shape opened q).replaceOldest sized rec) rfl
  pushReserved s i q rec target held room h := by
    have active : (s.slot i).state ≠ .idle := fun idle => Nat.ne_of_gt held (h.empty idle)
    refine h.updHeld target rfl (fun idle => idle) (fun idle => absurd idle active)
      (fun opened => (h.shape opened q).push room true rec) fun part => ?_
    show ((s.port (slotOwner i)).ring q).reserved - 1 + (s.slot i).held =
      ((s.port (slotOwner i)).ring q).reserved + ((s.slot i).held - 1)
    omega
  usePlace s i nowhere h := h.updSlot h.closed (fun idle => by
      show (s.slot i).held - 1 = 0
      rw [h.empty idle]) fun q =>
    (Slot.heldFor_elsewhere (x := (s.slot i).usePlace) (nowhere q)).trans (Slot.heldFor_elsewhere (nowhere q)).symm
  reserve s i q due _ target _ h := by
    have active : (s.slot i).state ≠ .idle := by rw [due]; nofun
    refine h.updHeld target rfl (fun idle => idle) (fun idle => absurd idle active)
      (fun opened => (h.shape opened q).reserve _) fun _ => ?_
    show ((s.port (slotOwner i)).ring q).reserved + (s.slot i).fields.scanLength.toNat + (s.slot i).held =
      ((s.port (slotOwner i)).ring q).reserved + ((s.slot i).held + (s.slot i).fields.scanLength.toNat)
    omega
  ended _ i _ h := h.ended i
  shut _ _ _ closed ended h := h.shut closed ended
  resetSlot _ _ closed h := h.updSlot_idle (h.closed closed) (fun _ => rfl) rfl
  slotFields _ _ _ idle h := h.updSlot_idle idle (fun _ => idle) (h.empty idle)
  opened _ _ closed valid _ h := h.opened closed valid
  posted _ _ opened idle _ h := h.updSlot_idle idle (fun closed => nomatch opened.symm.trans closed) (h.empty idle)
  release _ _ q _ inside h := h.updRing (fun opened => (h.shape opened q).release inside) rfl
  blank s closed blank := by
    have never : ∀ {p}, (s.port p).mode ≠ .opened := fun {p} opened => nomatch (closed p).symm.trans opened
    exact of_parts (fun i _ => congrArg Slot.state (blank i)) (fun i _ => congrArg Slot.held (blank i))
      (fun _ opened => absurd opened never) (fun _ opened => absurd opened never) fun _ opened => absurd opened never

end State.RingsHold

/-- Settles O60: what every kind of work keeps, every step keeps. -/
theorem stepKeepsRings : Obligations.StepKeepsRings := fun s t h e =>
  State.RingsHold.keptByPorts.keptBySteps.step s t h e

end Sys2Proof.Machine
end

section
/-! SUPPORT. The invariants after reset (R150): all ports CLOSED, all slots IDLE, all timers FREE, the pipeline idle. -/
namespace Sys2Proof.Machine

theorem State.closed_reset (p : Port) : (State.reset.port p).mode = .closed :=
  congrArg PortState.mode (State.port_reset p)

theorem State.idle_reset (i : SlotId) : (State.reset.slot i).state = .idle := congrArg Slot.state (State.slot_reset i)

theorem State.countsInRange_reset : State.reset.CountsInRange :=
  .of_parts (fun p => (State.port_reset p).symm ▸ .reset _)
    (fun i => (State.slot_reset i).symm ▸ Nat.zero_le _) (Nat.zero_le _) (Nat.zero_le _)

theorem State.closedOwnsNothing_reset : State.reset.ClosedOwnsNothing := by
  refine ⟨fun i _ => State.idle_reset i, fun n p owned => ?_, nofun, fun _ ch => ?_⟩
  · rw [State.timer_reset] at owned
    cases owned
  · rw [State.calEntry_reset]
    rfl

theorem State.namingTimer_reset (n : Fin 4) : State.reset.namingTimer n = [] :=
  List.filter_eq_nil_iff.mpr fun i _ => by simp [State.idle_reset i]

theorem State.refsExact_reset : State.reset.RefsExact := by
  refine ⟨fun i _ => State.idle_reset i, fun n => ?_⟩
  rw [State.timer_reset, State.namingTimer_reset]
  exact ⟨rfl, fun _ => ⟨rfl, rfl⟩, nofun⟩

theorem State.stampsExact_reset : State.reset.StampsExact := by
  refine ⟨fun i _ => State.idle_reset i, List.nodup_nil, List.not_mem_nil, fun w =>
    ⟨fun h => absurd h List.not_mem_nil, ?_⟩⟩
  rintro ⟨i, holds, -⟩
  simp [State.idle_reset i] at holds

/-- The buffer holds the stale record, and nothing is converting (R150). -/
theorem State.chainHolds_reset : State.reset.ChainHolds :=
  ⟨.inl rfl, rfl, nofun, fun _ _ _ => ⟨0, rfl⟩, nofun, nofun⟩

/-- Settles O5: each invariant from the reset values of the parts that it speaks of. -/
theorem invariantsHoldAtReset : Obligations.InvariantsHoldAtReset :=
  ⟨State.PoolHolds.keptByPorts.blank _ State.closed_reset State.slot_reset, State.countsInRange_reset,
    State.closedOwnsNothing_reset, State.RoomHolds.keptByPorts.blank _ State.closed_reset State.slot_reset,
    State.refsExact_reset, State.stampsExact_reset, State.chainHolds_reset,
    State.RingsHold.keptByPorts.blank _ State.closed_reset State.slot_reset⟩

end Sys2Proof.Machine
end

section
/-! SUPPORT. What the acquisition side leaves of the pacing timers and of the arbiter: each timer's owner and stored settings
(R28, R33), and the last-granted port (R41), which a grant alone changes. -/
namespace Sys2Proof.Machine

/-- `u` has the owner and the stored settings of `t`. -/
structure Timer.SettingsKept (t u : Timer) : Prop where
  owner : u.state.owner = t.state.owner
  prescale : u.prescale = t.prescale
  period : u.period = t.period

/-- `t` keeps of `s` every timer's owner and stored settings, and the last-granted port. -/
structure State.PacingKept (s t : State) : Prop where
  timer : ∀ n, (s.timer n).SettingsKept (t.timer n)
  lastGranted : t.arbiter.lastGranted = s.arbiter.lastGranted

namespace Timer.SettingsKept

theorem refl (t : Timer) : t.SettingsKept t := ⟨rfl, rfl, rfl⟩

theorem trans {t u v : Timer} (h : t.SettingsKept u) (k : u.SettingsKept v) : t.SettingsKept v :=
  ⟨k.owner.trans h.owner, k.prescale.trans h.prescale, k.period.trans h.period⟩

/-- Only an orphan, which has no owner, becomes FREE with its last reference (R30). -/
theorem dropRef (t : Timer) : t.SettingsKept t.dropRef := by
  rw [t.dropRef_eq]
  split
  · next orphan =>
    obtain ⟨-, running | stopped⟩ := orphan
    · exact ⟨by rw [running]; rfl, rfl, rfl⟩
    · exact ⟨by rw [stopped]; rfl, rfl, rfl⟩
  · exact ⟨rfl, rfl, rfl⟩

end Timer.SettingsKept

namespace State.PacingKept
variable {s t u : State}

theorem of_eq (timers : t.timers = s.timers) (lastGranted : t.arbiter.lastGranted = s.arbiter.lastGranted) :
    s.PacingKept t := by
  have timer : ∀ n, t.timer n = s.timer n := fun n => congrArg (tget · n) timers
  exact ⟨fun n => timer n ▸ .refl _, lastGranted⟩

theorem refl (s : State) : s.PacingKept s := of_eq rfl rfl

theorem trans (h : s.PacingKept t) (k : t.PacingKept u) : s.PacingKept u :=
  ⟨fun n => (h.timer n).trans (k.timer n), k.lastGranted.trans h.lastGranted⟩

theorem foldl {α : Type} {f : State → α → State} (hf : ∀ (s : State) (a : α), s.PacingKept (f s a)) (l : List α)
    (s : State) : s.PacingKept (l.foldl f s) :=
  List.foldlRecOn l f (refl s) fun t ht a _ => ht.trans (hf t a)

theorem updTimer (s : State) (n : Fin 4) {f : Timer → Timer} (h : (s.timer n).SettingsKept (f (s.timer n))) :
    s.PacingKept (s.updTimer n f) := by
  refine ⟨fun m => ?_, rfl⟩
  rw [State.timer_updTimer]
  split
  · next e => exact e ▸ h
  · exact .refl _

theorem withSeq (s : State) (q : Sequencer) : s.PacingKept { s with seq := q } := of_eq rfl rfl

theorem updSeq (s : State) (f : Sequencer → Sequencer) : s.PacingKept (s.updSeq f) := of_eq rfl rfl

theorem updPort (s : State) (p : Port) (f : PortState → PortState) : s.PacingKept (s.updPort p f) := of_eq rfl rfl

theorem updSlot (s : State) (i : SlotId) (f : Slot → Slot) : s.PacingKept (s.updSlot i f) := of_eq rfl rfl

theorem updCounters (s : State) (i : SlotId) (f : Counters → Counters) : s.PacingKept (s.updCounters i f) :=
  of_eq rfl rfl

theorem countFree (s : State) : s.PacingKept s.countFree := of_eq rfl rfl

/-! ### The Request Table -/

theorem dropTimerRef (s : State) (f : SlotFields) : s.PacingKept (s.dropTimerRef f) := by
  unfold State.dropTimerRef
  split
  · exact updTimer s _ (.dropRef _)
  · exact refl s

theorem returnStalled (s : State) (p : Port) (q : QueueId) : s.PacingKept (s.returnStalled p q) := by
  obtain ⟨v, e, -⟩ := s.returnStalled_eq p q
  rw [e]
  exact of_eq rfl rfl

theorem returnHeld (s : State) (p : Port) (x : Slot) (examine : Bool) : s.PacingKept (s.returnHeld p x examine) := by
  unfold State.returnHeld
  split
  · exact refl s
  · split
    · next q _ =>
      dsimp only
      split
      · exact (updPort s p _).trans (returnStalled _ p q)
      · exact updPort s p _
    · exact refl s

theorem endPosting (s : State) (i : SlotId) (o : Option EndOutcome) : s.PacingKept (s.endPosting i o) := by
  have ended : ∀ t : State, t.PacingKept (((((t.updSlot i Slot.ended).dropTimerRef (s.slot i).fields).pruneStamps).forgetCut
      i).returnHeld (slotOwner i) (s.slot i) o.isSome) := fun t =>
    (((updSlot t i _).trans (dropTimerRef _ _)).trans
      (of_eq (t := (((t.updSlot i Slot.ended).dropTimerRef (s.slot i).fields).pruneStamps).forgetCut i) rfl rfl)).trans
        (returnHeld _ _ _ _)
  unfold State.endPosting
  dsimp only
  split
  · exact refl s
  · cases o with
    | none => exact ended s
    | some o => exact (updPort s _ _).trans (ended _)

theorem makeDue (s : State) (ids : List SlotId) : s.PacingKept (s.makeDue ids) := by
  unfold State.makeDue
  split
  · exact refl s
  · have due := fun stamp => foldl (f := fun s i => s.updSlot i (Slot.becomeDue stamp)) (fun _ _ => of_eq rfl rfl) ids s
    exact (due _).trans (of_eq rfl rfl)

theorem takeTrigger (s : State) (i : SlotId) : s.PacingKept (s.takeTrigger i) := by
  have missed : s.PacingKept ((s.updCounters i Counters.missTrigger).raise (slotOwner i) .triggerMissed) := of_eq rfl rfl
  have pending : s.PacingKept (s.updSlot i fun x => { x with pendingTrigger := true }) := of_eq rfl rfl
  unfold State.takeTrigger
  dsimp only
  split
  · exact refl s
  · exact refl s
  · split
    · split
      · exact missed.trans (endPosting _ _ _)
      · exact missed
    · exact pending
  · split
    · split
      · exact missed.trans (endPosting _ _ _)
      · exact missed
    · exact pending
  · split
    · split
      · exact missed.trans (updSlot _ i _)
      · exact missed
    · exact pending
  · exact of_eq rfl rfl

theorem deliverTriggers (s : State) (ids : List SlotId) : s.PacingKept (s.deliverTriggers ids) := by
  unfold State.deliverTriggers
  exact (((makeDue s _).trans (foldl takeTrigger _ _)).trans (foldl takeTrigger _ _)).trans (countFree _)

theorem completeSweep (s : State) (i : SlotId) : s.PacingKept (s.completeSweep i) := by
  have counted := updCounters s i Counters.completeSweep
  unfold State.completeSweep
  split
  · dsimp only
    split
    · exact counted.trans (endPosting _ _ _)
    · split
      · exact (counted.trans (updSlot _ i _)).trans (makeDue _ _)
      · split
        · exact counted.trans (makeDue _ _)
        · exact counted.trans (updSlot _ i _)
  · exact counted.trans (endPosting _ _ _)
  all_goals exact refl s

theorem cutSweep (s : State) (i : SlotId) : s.PacingKept (s.cutSweep i) := by
  unfold State.cutSweep
  split
  · exact endPosting s _ _
  all_goals exact refl s

theorem takeReport (s : State) (r : Option Report) : s.PacingKept (s.takeReport r) := by
  unfold State.takeReport
  split
  · exact refl s
  · split
    · exact completeSweep s _
    · exact cutSweep s _

theorem handReport (s : State) (r : Option Report) : s.PacingKept (s.handReport r) := by
  unfold State.handReport
  split
  · exact refl s
  · split
    · exact of_eq rfl rfl
    · exact cutSweep s _

theorem takeFirstReport (s : State) : s.PacingKept s.takeFirstReport := by
  unfold State.takeFirstReport
  split
  · exact refl s
  · exact (withSeq s _).trans (completeSweep _ _)

theorem takeReports (s : State) (which : SlotId → Bool) : s.PacingKept (s.takeReports which) := by
  unfold State.takeReports
  exact (withSeq s _).trans (foldl completeSweep _ _)

theorem takeReportsWhen (s : State) (w : ReportTaking) : s.PacingKept (s.takeReportsWhen w) := by
  cases w
  · exact takeReports s _
  · exact refl s

theorem takePost (s : State) (i : SlotId) : s.PacingKept (s.takePost i) := by
  have posted : s.PacingKept ((s.updSlot i Slot.posted).addTimerRef (s.slot i).fields) := by
    unfold State.addTimerRef
    split
    · exact (updSlot s i _).trans (updTimer _ _ ⟨rfl, rfl, rfl⟩)
    · exact of_eq rfl rfl
  unfold State.takePost
  dsimp only
  split
  · exact posted.trans (makeDue _ _)
  · exact posted

theorem takeCancel (s : State) (i : SlotId) (m : CancelMode) : s.PacingKept (s.takeCancel i m).1 := by
  unfold State.takeCancel
  split
  · exact refl s
  · exact endPosting s _ _
  · exact endPosting s _ _
  · exact endPosting s _ _
  all_goals exact of_eq rfl rfl

/-! ### Delivery and the pipeline -/

theorem deliver (s : State) (c : Option Port) (x : Sample) : s.PacingKept (s.deliver c x) := by
  have own : ∀ (t : State) (rec : SampleRecord), t.PacingKept (t.deliverOwn x rec) := fun t rec => by
    unfold State.deliverOwn
    dsimp only
    split
    · exact refl t
    · exact of_eq rfl rfl
  have produced : s.PacingKept (s.updCounters x.slot fun c => { c with entriesProduced := c.entriesProduced + 1 }) :=
    of_eq rfl rfl
  unfold State.deliver
  dsimp only
  split
  · refine (produced.trans (own _ _)).trans (foldl (fun t p => ?_) _ _)
    split
    · exact of_eq rfl rfl
    · exact refl t
  · exact produced.trans (own _ _)

theorem readout (s : State) (c : Option Port) : s.PacingKept (s.readout c).1 := by
  unfold State.readout
  dsimp only
  split
  · unfold State.readSweep
    split
    · dsimp only
      exact updSeq s _
    · split
      · exact ((updSeq s _).trans (updSeq _ _)).trans (deliver _ _ _)
      · exact of_eq rfl rfl
  all_goals exact of_eq rfl rfl

theorem startSelected (s : State) (r : SweepRecord) : s.PacingKept (s.startSelected r) := by
  have started : s.PacingKept (((s.readout none).1.updSeq fun q => { q with selected := none }).beginConversion (.sweep r)) :=
    ((readout s none).trans (updSeq _ _)).trans (updSeq _ _)
  have refilled : ∀ t : State, t.PacingKept (t.refill r) := fun t => by
    unfold State.refill
    split <;> exact updSeq t _
  unfold State.startSelected
  dsimp only
  refine trans ?_ (handReport _ _)
  split
  · exact started.trans (refilled _)
  · exact started

theorem flush (s : State) (c : Option Port) : s.PacingKept (s.flush c) :=
  ((readout s c).trans (updSeq _ _)).trans (handReport _ _)

theorem flushOrIdle (s : State) (c : Option Port) : s.PacingKept (s.flushOrIdle c) := by
  unfold State.flushOrIdle
  split
  · exact flush s c
  · exact updSeq s _

theorem afterRemoval (s : State) (c : Option Port) : s.PacingKept (s.afterRemoval c) := by
  unfold State.afterRemoval
  split
  · exact flushOrIdle s c
  · exact refl s

theorem cutUnstarted (s : State) (i : SlotId) : s.PacingKept (s.cutUnstarted i) := by
  have dropped := updSeq s Sequencer.dropSelected
  have counted : ∀ {t : State}, s.PacingKept t → s.PacingKept t.countFree.countFree := fun h => (h.trans (countFree _)).trans (countFree _)
  unfold State.cutUnstarted
  dsimp only
  split
  · refine counted (trans ?_ (takeReport _ _))
    split
    · exact (dropped.trans (afterRemoval _ none)).trans (takeReports _ _)
    · exact dropped.trans (afterRemoval _ none)
  · exact counted ((dropped.trans (takeReport _ _)).trans (afterRemoval _ _))

theorem cut (s : State) (i : SlotId) : s.PacingKept (s.cut i) := by
  have forgot : s.PacingKept (s.forgetCut i) := of_eq rfl rfl
  have truncated : ∀ (t : State) (e : Nat), t.PacingKept (t.cutAfter i e) := fun t e => by
    unfold State.cutAfter
    dsimp only
    split
    · exact ((updSlot t i _).trans (updSeq _ _)).trans (afterRemoval _ _)
    · exact of_eq rfl rfl
  unfold State.cut State.takeCut
  dsimp only
  split
  · split
    · split
      · exact forgot.trans (cutUnstarted _ _)
      · exact forgot
    · split
      · exact forgot
      · exact forgot.trans (truncated _ _)
  · exact refl s

theorem doneTimeout (s : State) : s.PacingKept s.doneTimeout := by
  unfold State.doneTimeout
  split
  · split
    · exact (of_eq rfl rfl : s.PacingKept ((s.updSeq Sequencer.faultOut).raiseAll .converterFault)).trans
        (foldl (fun s i => endPosting s i _) _ _)
    · exact of_eq rfl rfl
    · exact refl s
  · exact refl s

theorem converterDone (s : State) (raw : Word) (w : ReportTaking) : s.PacingKept (s.converterDone raw w) := by
  have ended : ∀ t : State, t.PacingKept (let u := t.updSeq fun q =>
      { q with buffer := q.converting, converting := none, doneTimeout := none, converterCode := raw }
      if u.seq.selected.isNone then u.flushOrIdle none else u) := by
    intro t
    dsimp only
    split
    · exact (updSeq t _).trans (flushOrIdle _ _)
    · exact updSeq t _
  unfold State.converterDone
  split
  · refine trans ?_ (takeReportsWhen _ w)
    unfold State.endConversion
    refine trans ?_ (ended _)
    split
    · exact of_eq rfl rfl
    · exact refl s
  · exact refl s

theorem startConversion (s : State) (w : ReportTaking) : s.PacingKept (s.startConversion w) := by
  unfold State.startConversion
  split
  · split
    · exact (startSelected s _).trans (takeReportsWhen _ w)
    · exact refl s
  · exact refl s

/-- A CLOSE, up to the release of the port's timers. -/
theorem leavePipeline (s : State) (p : Port) : s.PacingKept (s.leavePipeline p) := by
  unfold State.leavePipeline
  dsimp only
  refine trans ?_ (countFree _)
  split
  · exact (updSeq s _).trans (afterRemoval _ _)
  · exact updSeq s _

theorem endPortPostings (s : State) (p : Port) : s.PacingKept (s.endPortPostings p) :=
  foldl (fun s i => endPosting s i none) _ s

end State.PacingKept

/-- A grant leaves the timers alone. -/
theorem State.timers_grant (s : State) : s.grant.timers = s.timers := by
  by_cases hd : s.grantDue = true
  · obtain ⟨t, ⟨-, stalled⟩, e⟩ | ⟨t, i, made, e⟩ := State.grant_cases hd
    · rw [e, stalled.rest]
    · rw [e, t.grantTo_rest i, made.stalled.rest]
  · unfold State.grant
    rw [if_neg hd]

end Sys2Proof.Machine
end

section
/-! SUPPORT. A CLOSED port holds no posting, no timer and no lease (R146), and no provisional part outlives the lease (R91,
R99, R100). -/
namespace Sys2Proof.Machine

/-! ### Postings -/

/-- Every slot of a CLOSED port is IDLE. -/
def State.ClosedIdle (s : State) : Prop := ∀ i, (s.port (slotOwner i)).mode = .closed → (s.slot i).state = .idle

namespace State.ClosedIdle
variable {s : State}

/-- Work on one slot that leaves it IDLE if its port is CLOSED. -/
theorem updSlot (h : s.ClosedIdle) {i : SlotId} {f : Slot → Slot}
    (idle : (s.port (slotOwner i)).mode = .closed → (f (s.slot i)).state = .idle) : (s.updSlot i f).ClosedIdle := by
  intro j
  rw [State.slot_updSlot]
  split
  · next e => exact e ▸ idle
  · exact h j

theorem updSlot_same (h : s.ClosedIdle) {i : SlotId} {f : Slot → Slot} (state : (f (s.slot i)).state = (s.slot i).state) :
    (s.updSlot i f).ClosedIdle := h.updSlot fun closed => state.trans (h i closed)

/-- Work on one port that leaves it in its mode. -/
theorem updPort (h : s.ClosedIdle) {p : Port} {f : PortState → PortState} (mode : (f (s.port p)).mode = (s.port p).mode) :
    (s.updPort p f).ClosedIdle := by
  intro j
  rw [State.port_updPort]
  split
  · next e => exact fun closed => h j ((e ▸ mode).symm.trans closed)
  · exact h j

theorem updRing (h : s.ClosedIdle) (p : Port) (q : QueueId) (f : Ring → Ring) : (s.updRing p q f).ClosedIdle :=
  h.updPort (PortState.mode_updRing _ q f)

theorem keptByPorts : KeptByPorts State.ClosedIdle where
  same _ _ e h i closed := (e.slot i).idle.mpr (h i ((e.port _).mode.symm.trans closed))
  push _ p q _ _ h := h.updRing p q _
  replaceOldest _ p q _ _ _ h := h.updRing p q _
  pushReserved _ i q _ _ _ _ h := (h.updRing (slotOwner i) q _).updSlot_same rfl
  usePlace _ _ _ h := h.updSlot_same rfl
  reserve _ i q _ _ _ _ h := (h.updRing (slotOwner i) q _).updSlot_same rfl
  ended s i _ h := by
    refine (h.updSlot (f := Slot.ended) fun _ => rfl).updPort ?_
    unfold PortState.giveBack
    split
    · exact PortState.mode_updRing _ _ _
    · rfl
  shut s p f closed ended h i := by
    rw [State.port_updPort]
    split
    · next own =>
      cases was : (s.port p).mode with
      | opened => exact fun _ => ended was i own
      | closed => exact fun _ => h i (own ▸ was)
    · exact h i
  resetSlot _ _ _ h := h.updSlot fun _ => rfl
  slotFields _ _ _ _ h := h.updSlot_same rfl
  opened s p _ _ _ h i := by
    rw [State.port_updPort]
    split
    · exact fun closed => nomatch (PortState.opened_mode _).symm.trans closed
    · exact h i
  posted _ _ opened _ _ h := h.updSlot fun closed => nomatch opened.symm.trans closed
  release _ p q _ _ h := h.updRing p q _
  blank _ _ blank i _ := congrArg Slot.state (blank i)

end State.ClosedIdle

/-! ### Timers and the lease -/

/-- Whoever owns a timer or holds the lease is OPEN, and without a holder there is no provisional part. -/
structure State.OwnersOpen (s : State) : Prop where
  timer : ∀ n p, (s.timer n).state.owner = some p → (s.port p).mode = .opened
  lease : ∀ p, s.cal.lease.holder = some p → (s.port p).mode = .opened
  provisional : s.cal.lease.holder = none → ∀ ch, (s.calEntry ch).provisional = none

theorem State.closedOwnsNothing_iff (s : State) : s.ClosedOwnsNothing ↔ s.ClosedIdle ∧ s.OwnersOpen :=
  ⟨fun ⟨idle, timer, lease, provisional⟩ => ⟨idle, timer, lease, provisional⟩,
    fun ⟨idle, owners⟩ => ⟨idle, owners.timer, owners.lease, owners.provisional⟩⟩

/-- A released timer has no owner (R35). -/
theorem Timer.owner_release (t : Timer) : t.release.state.owner = none := by
  unfold Timer.release
  split
  · split <;> rfl
  · split <;> rfl
  all_goals
    next e => rw [e]; rfl

/-- A CLAIM leaves the owner, or makes the claiming port the owner (R32). -/
theorem Timer.owner_claim (p : Port) (t : Timer) :
    (t.claim p).1.state.owner = t.state.owner ∨ (t.claim p).1.state.owner = some p := by
  unfold Timer.claim
  split
  · exact .inr rfl
  · exact .inr rfl
  · exact .inr rfl
  · exact .inl rfl
  · exact .inl rfl

/-- A START leaves the owner (R34). -/
theorem Timer.owner_start {p : Port} {t : Timer} (own : t.state.owner = some p) :
    (t.start p).1.state.owner = t.state.owner := by
  unfold Timer.start
  split
  · exact own.symm
  · rfl

/-- A STOP leaves the owner (R34). -/
theorem Timer.owner_stop {p : Port} {t : Timer} (own : t.state.owner = some p) :
    (t.stop p).1.state.owner = t.state.owner := by
  unfold Timer.stop
  split
  · exact own.symm
  · rfl

theorem Timer.state_unit (t : Timer) : t.unit.state = t.state := by
  unfold Timer.unit
  split <;> rfl

theorem Timer.state_tick (t : Timer) : t.tick.state = t.state := by
  unfold Timer.tick
  split <;> rfl

theorem State.timer_releaseTimers_fold (p : Port) (l : List (Fin 4)) (s : State) (n : Fin 4) :
    (l.foldl (fun s n => if (s.timer n).state.owner = some p then s.updTimer n Timer.release else s) s).timer n =
      if n ∈ l ∧ (s.timer n).state.owner = some p then (s.timer n).release else s.timer n := by
  induction l generalizing s with
  | nil => simp
  | cons m l ih =>
    rw [List.foldl_cons, ih]
    by_cases own : (s.timer m).state.owner = some p
    · rw [if_pos own, State.timer_updTimer]
      by_cases e : n = m
      · subst e
        rw [if_pos rfl, if_neg (by simp [Timer.owner_release]), if_pos ⟨List.mem_cons_self, own⟩]
      · simp [e]
    · rw [if_neg own]
      by_cases e : n = m
      · subst e
        simp [own]
      · simp [e]

/-- Exactly the timers of the port are released (R36). -/
theorem State.timer_releaseTimers (s : State) (p : Port) (n : Fin 4) :
    (s.releaseTimers p).timer n = if (s.timer n).state.owner = some p then (s.timer n).release else s.timer n := by
  have all : n ∈ allTimers := by
    revert n
    decide
  exact (State.timer_releaseTimers_fold p allTimers s n).trans (by simp [all])

namespace State.OwnersOpen
variable {s t : State}

/-- No OPEN port closes, no timer gets an owner, the lease no holder and no channel a provisional part. -/
theorem of_less (h : s.OwnersOpen) (modes : ∀ p, (s.port p).mode = .opened → (t.port p).mode = .opened)
    (owners : ∀ n p, (t.timer n).state.owner = some p → (s.timer n).state.owner = some p)
    (holder : t.cal.lease.holder = s.cal.lease.holder)
    (provisional : ∀ ch, (s.calEntry ch).provisional = none → (t.calEntry ch).provisional = none) : t.OwnersOpen where
  timer n p own := modes p (h.timer n p (owners n p own))
  lease p holds := modes p (h.lease p (holder ▸ holds))
  provisional free ch := provisional ch (h.provisional (holder ▸ free) ch)

theorem of_same (h : s.OwnersOpen) (ports : t.ports = s.ports) (timers : t.timers = s.timers) (cal : t.cal = s.cal) :
    t.OwnersOpen := by
  refine h.of_less (fun p open' => ?_) (fun n p own => ?_) (congrArg (·.lease.holder) cal) fun ch none => ?_
  · exact (congrArg (fun ps => (Ports.port ps p).mode) ports).trans open'
  · exact (congrArg (fun ts => (tget ts n).state.owner) timers).symm.trans own
  · exact (congrArg (fun c => (tget c.table (channelIndex ch)).provisional) cal).trans none

/-- The acquisition side keeps modes, owners, lease and table. -/
theorem of_kept (h : s.OwnersOpen) (k : s.Kept t) (owners : ∀ n, (t.timer n).state.owner = (s.timer n).state.owner) :
    t.OwnersOpen := by
  refine h.of_less (fun p open' => (k.mode p).trans open') (fun n p own => (owners n).symm.trans own)
    (congrArg (·.lease.holder) k.cal) fun ch none => ?_
  exact (congrArg (fun c => (tget c.table (channelIndex ch)).provisional) k.cal).trans none

theorem of_pacing (h : s.OwnersOpen) (k : s.Kept t) (pacing : s.PacingKept t) : t.OwnersOpen :=
  h.of_kept k fun n => (pacing.timer n).owner

theorem of_coreSame (h : s.OwnersOpen) (e : s.CoreSame t) : t.OwnersOpen :=
  h.of_less (fun p open' => (e.port p).mode.trans open') (fun n _ own => e.timer n ▸ own)
    (congrArg (·.lease.holder) e.cal) fun ch none => e.calEntry ch ▸ none

/-- Work on one port that does not close it. -/
theorem updPort (h : s.OwnersOpen) (p : Port) {f : PortState → PortState}
    (mode : (s.port p).mode = .opened → (f (s.port p)).mode = .opened) : (s.updPort p f).OwnersOpen := by
  refine h.of_less (fun q => ?_) (fun _ _ => id) rfl fun _ => id
  rw [State.port_updPort]
  split
  · next e => exact e ▸ mode
  · exact id

/-- Work on one timer that leaves its owner, or gives it an OPEN one. -/
theorem updTimer (h : s.OwnersOpen) (n : Fin 4) {f : Timer → Timer}
    (owner : ∀ p, (f (s.timer n)).state.owner = some p →
      (s.timer n).state.owner = some p ∨ (s.port p).mode = .opened) : (s.updTimer n f).OwnersOpen where
  timer m p := by
    rw [State.timer_updTimer]
    split
    · next e => exact fun own => (owner p (e ▸ own)).elim (h.timer n p) id
    · exact h.timer m p
  lease := h.lease
  provisional := h.provisional

theorem updTimer_same (h : s.OwnersOpen) (n : Fin 4) {f : Timer → Timer}
    (owner : (f (s.timer n)).state.owner = (s.timer n).state.owner) : (s.updTimer n f).OwnersOpen :=
  h.updTimer n fun _ own => .inl (owner.symm.trans own)

theorem updSlot (h : s.OwnersOpen) (i : SlotId) (f : Slot → Slot) : (s.updSlot i f).OwnersOpen := h.of_same rfl rfl rfl

/-- Work on one channel's entry that gives it no provisional part. -/
theorem updCalEntry (h : s.OwnersOpen) (ch : Channel) {f : CalEntry → CalEntry}
    (provisional : (s.calEntry ch).provisional = none → (f (s.calEntry ch)).provisional = none) :
    (s.updCalEntry ch f).OwnersOpen := by
  refine h.of_less (fun _ => id) (fun _ _ => id) rfl fun c => ?_
  rw [State.calEntry_updCalEntry]
  split
  · next e => exact e ▸ provisional
  · exact id

/-- The holder's SET_PROVISIONAL (R101). -/
theorem setProvisional (h : s.OwnersOpen) {p : Port} (holds : s.cal.lease.holder = some p) (ch : Channel)
    (f : CalEntry → CalEntry) : (s.updCalEntry ch f).OwnersOpen where
  timer := h.timer
  lease := h.lease
  provisional free := nomatch holds.symm.trans free

/-- A lease that an OPEN port takes (R97). -/
theorem takeLease (h : s.OwnersOpen) {p : Port} (opened : (s.port p).mode = .opened) : (s.takeLease p).1.OwnersOpen := by
  unfold State.takeLease
  dsimp only
  split
  · exact h
  · split
    · exact ⟨h.timer, fun q holds => Option.some.inj holds ▸ opened, nofun⟩
    · exact h

/-- The lease ends with every provisional part (R99, R100). -/
theorem leaseEnded (h : s.OwnersOpen) (ports : t.ports = s.ports) (timers : t.timers = s.timers)
    (free : t.cal.lease.holder = none) (provisional : ∀ ch, (t.calEntry ch).provisional = none) : t.OwnersOpen where
  timer n p own := (congrArg (fun ps => (Ports.port ps p).mode) ports).trans
    (h.timer n p ((congrArg (fun ts => (tget ts n).state.owner) timers).symm.trans own))
  lease _ holds := nomatch free.symm.trans holds
  provisional _ := provisional

theorem dropLease (h : s.OwnersOpen) : s.dropLease.OwnersOpen := by
  obtain ⟨table, r, e, -, discarded⟩ := s.dropLease_eq
  rw [e]
  exact h.leaseEnded rfl rfl rfl fun ch => congrArg CalEntry.provisional (discarded (channelIndex ch))

theorem leaseExpiry (h : s.OwnersOpen) : s.leaseExpiry.OwnersOpen := by
  obtain ⟨table, e, discarded⟩ := s.discardProvisional_eq
  unfold State.leaseExpiry
  rw [e]
  split
  · split
    · refine of_coreSame ?_ (State.coreSame_raise _ _ _)
      exact h.leaseEnded rfl rfl rfl fun ch => congrArg CalEntry.provisional (discarded (channelIndex ch))
    · exact h
  · exact h

theorem takeWriteReport (h : s.OwnersOpen) (b : Bool) : (s.takeWriteReport b).OwnersOpen := by
  have emptied : ∀ {t : State}, t.OwnersOpen → ∀ p e, (t.emptyCommit.raise p e).OwnersOpen := fun {t} ht p e => by
    have : t.emptyCommit.OwnersOpen := ⟨ht.timer, ht.lease, ht.provisional⟩
    exact this.of_coreSame (State.coreSame_raise _ p e)
  unfold State.takeWriteReport
  split
  · refine emptied (h.updCalEntry _ fun none => ?_) _ _
    unfold CalEntry.commitEnd
    split
    · simp [none]
    · exact none
  · refine emptied (h.updCalEntry _ fun none => ?_) _ _
    unfold CalEntry.burnEnd
    split <;> exact none
  · exact h
  · exact h

/-- A port that owns no timer and not the lease may close. -/
theorem shut (h : s.OwnersOpen) {p : Port} (f : PortState → PortState) (timers : ∀ n, (s.timer n).state.owner ≠ some p)
    (lease : s.cal.lease.holder ≠ some p) : (s.updPort p f).OwnersOpen where
  timer n q own := (congrArg PortState.mode (State.port_updPort_ne s f fun e : q = p => timers n (e ▸ own))).trans (h.timer n q own)
  lease q holds := (congrArg PortState.mode (State.port_updPort_ne s f fun e : q = p => lease (e ▸ holds))).trans (h.lease q holds)
  provisional := h.provisional

theorem closeEffects (h : s.OwnersOpen) (p : Port) : (s.closeEffects p).OwnersOpen := by
  have owned : ∀ n, ((s.closing p).timer n).state.owner ≠ some p ∧
      ∀ q, ((s.closing p).timer n).state.owner = some q → (s.timer n).state.owner = some q := fun n => by
    have before : s.PacingKept (((s.takePortReports p).endPortPostings p).leavePipeline p) :=
      ((State.PacingKept.takeReports s _).trans (.endPortPostings _ p)).trans (.leavePipeline _ p)
    unfold State.closing
    rw [State.timer_releaseTimers]
    split
    · simp [Timer.owner_release]
    · next other => exact ⟨other, fun q own => (before.timer n).owner.symm.trans own⟩
  have cal := (s.kept_closing p).cal
  have closing : (s.closing p).OwnersOpen := h.of_less (fun q open' => ((s.kept_closing p).mode q).trans open')
    (fun n q => (owned n).2 q) (congrArg (·.lease.holder) cal) fun ch none =>
      (congrArg (fun c => (tget c.table (channelIndex ch)).provisional) cal).trans none
  rw [s.closeEffects_eq]
  by_cases holds : (s.closing p).cal.lease.holder = some p
  · have left : (s.closing p).leaveLease p = (s.closing p).dropLease := if_pos holds
    obtain ⟨table, r, e, -⟩ := (s.closing p).dropLease_eq
    refine (left ▸ closing.dropLease : ((s.closing p).leaveLease p).OwnersOpen).shut _ (fun n => ?_) ?_
    · rw [State.timer_leaveLease]
      exact (owned n).1
    · rw [left, e]
      nofun
  · have stays : (s.closing p).leaveLease p = s.closing p := if_neg holds
    rw [stays]
    exact closing.shut _ (fun n => (owned n).1) holds

theorem portReset (h : s.OwnersOpen) (p : Port) : (s.portReset p).OwnersOpen := by
  have closed : ∀ u : State, u.OwnersOpen → (u.port p).mode = .closed → ∀ v : Vector Slot 24,
      State.OwnersOpen { u.updPort p PortState.clear with slots := v } := fun u hu mode v =>
    (hu.updPort p fun opened => nomatch mode.symm.trans opened).of_same rfl rfl rfl
  obtain ⟨v, e, -⟩ := s.portReset_eq p
  rw [e]
  cases mode : (s.port p).mode with
  | opened =>
    rw [if_pos rfl]
    refine closed _ (h.closeEffects p) ?_ v
    rw [s.closeEffects_eq, State.port_updPort_self]
    rfl
  | closed =>
    rw [if_neg nofun]
    exact closed s h mode v

theorem resetAll (s : State) (b : Bool) : (s.resetAll b).OwnersOpen := by
  have timers : ∀ n, (s.resetAll b).timer n = Timer.reset := fun n => tget_replicate _ n
  refine ⟨fun n p own => ?_, nofun, fun _ ch => ?_⟩
  · rw [timers] at own
    cases own
  · exact congrArg CalEntry.provisional (tget_replicate CalEntry.reset (channelIndex ch))

theorem passMicrosecond (h : s.OwnersOpen) : s.passMicrosecond.OwnersOpen := by
  have timers : ∀ t : State, t.OwnersOpen → (allTimers.foldl (fun s n => s.updTimer n Timer.tick) t).OwnersOpen :=
    fun t ht => List.foldlRecOn _ _ ht fun u hu n _ => hu.updTimer_same n (congrArg _ (Timer.state_tick _))
  have ports : ∀ t : State, t.OwnersOpen → (allPorts.foldl (fun s p => s.updPort p PortState.tick) t).OwnersOpen :=
    fun t ht => List.foldlRecOn _ _ ht fun u hu p _ => hu.updPort p (u.port p).setupKept_tick.mode.trans
  unfold State.passMicrosecond
  split
  · exact h
  · have ticked := ports _ (timers { s with now := s.now + 1 } (h.of_same rfl rfl rfl))
    refine ticked.of_less (fun _ => id) (fun _ _ => id) ?_ fun _ => id
    exact (congrArg Lease.holder (State.lease_updLease _ Lease.tick)).trans (by unfold Lease.tick; split <;> rfl)

theorem openPort (h : s.OwnersOpen) (p : Port) : (s.openPort p).1.OwnersOpen := by
  obtain e | ⟨-, -, -, e⟩ := s.openPort_cases p
  · rw [e]
    exact h
  · rw [e]
    exact h.updPort p fun _ => PortState.opened_mode _

theorem post (h : s.OwnersOpen) (p : Port) : (s.post p).1.OwnersOpen := by
  unfold State.post
  split
  · exact h
  · dsimp only
    split
    · exact h.of_pacing (s.kept_takePost _) (.takePost s _)
    · exact h

theorem cancel (h : s.OwnersOpen) (p : Port) : (s.cancel p).1.OwnersOpen := by
  unfold State.cancel
  split
  · exact h
  · split
    · exact h
    · exact h.of_pacing (s.kept_takeCancel _ _) (.takeCancel s _ _)

theorem ackQueue (h : s.OwnersOpen) (p : Port) : (s.ackQueue p).1.OwnersOpen := by
  unfold State.ackQueue
  split
  · exact h
  · next q _ =>
    dsimp only
    split
    · have acknowledged := h.updPort p ((s.port p).setupKept_acknowledge q (s.param p 1)).mode.trans
      exact acknowledged.of_pacing (State.kept_returnStalled _ p _) (.returnStalled _ p q)
    · exact h

theorem popCompletion (h : s.OwnersOpen) (p : Port) : (s.popCompletion p).1.OwnersOpen := by
  unfold State.popCompletion
  split
  · exact h
  · next rest _ => exact h.updPort p (f := fun ps => { ps with completions := rest }) id

theorem restartConverter (h : s.OwnersOpen) : s.restartConverter.1.OwnersOpen := by
  unfold State.restartConverter
  split
  · exact h.of_same rfl rfl rfl
  · exact h
  · exact h

theorem grant (h : s.OwnersOpen) : s.grant.OwnersOpen :=
  h.of_kept s.kept_grant fun n => congrArg (fun ts => (tget ts n).state.owner) s.timers_grant

/-- Every kind of work leaves timers and the lease with OPEN ports alone. -/
theorem keptBySteps : KeptBySteps State.OwnersOpen where
  words _ _ e h := h.of_coreSame e
  lineLow _ p _ h := h.updPort p id
  slotFields _ i _ _ h := h.updSlot i _
  configuration s p a v _ h := h.updPort p ((s.port p).mode_writeConfiguration a v).trans
  openPort _ p h := h.openPort p
  closeEffects _ p _ h := h.closeEffects p
  portReset _ p h := h.portReset p
  resetAll s b _ := resetAll s b
  post _ p _ h := h.post p
  cancel _ p h := h.cancel p
  deliverTriggers s _ h := h.of_pacing (s.kept_deliverTriggers _) (.deliverTriggers s _)
  trigger s _ _ h := h.of_pacing (s.kept_deliverTriggers _) (.deliverTriggers s _)
  ackQueue _ p h := h.ackQueue p
  releaseSlots s p h := h.updPort p ((s.port p).setupKept_releaseLatest _).mode.trans
  popCompletion _ p h := h.popCompletion p
  claimTimer s p n opened h := h.updTimer n fun _ own => ((s.timer n).owner_claim p).elim
    (fun same => .inl (same.symm.trans own)) fun claimed => .inr (Option.some.inj (claimed.symm.trans own) ▸ opened)
  setTimer _ n _ _ h := h.updTimer_same n rfl
  startTimer _ _ n own h := h.updTimer_same n (Timer.owner_start own)
  stopTimer _ _ n own h := h.updTimer_same n (Timer.owner_stop own)
  releaseTimer _ n h := h.updTimer n fun _ own => nomatch (Timer.owner_release _).symm.trans own
  line _ _ _ h := h.of_same rfl rfl rfl
  renew _ h := ⟨h.timer, h.lease, h.provisional⟩
  takeLease _ _ opened h := h.takeLease opened
  endLease _ h := h.dropLease
  leaseExpiry _ h := h.leaseExpiry
  setProvisional _ _ ch _ holds h := h.setProvisional holds ch _
  dropProvisional _ ch h := h.updCalEntry ch fun _ => rfl
  commitPending _ ch _ h := h.updCalEntry ch id
  fillCommit _ _ _ _ h := ⟨h.timer, h.lease, h.provisional⟩
  store _ _ h := h.of_same rfl rfl rfl
  restartConverter _ h := h.restartConverter
  timerUnit s n h := h.updTimer_same n (congrArg _ (s.timer n).state_unit)
  timerLoad _ n _ h := h.updTimer_same n rfl
  grant _ h := h.grant
  startConversion s w h := h.of_pacing (s.kept_startConversion w) (.startConversion s w)
  converterDone s raw w h := h.of_pacing (s.kept_converterDone raw w) (.converterDone s raw w)
  takeFirstReport s h := h.of_pacing s.kept_takeFirstReport (.takeFirstReport s)
  doneTimeout s h := h.of_pacing s.kept_doneTimeout (.doneTimeout s)
  cut s i h := h.of_pacing (s.kept_cut i) (.cut s i)
  microsecond _ h := h.passMicrosecond
  timeoutTick s p h := h.updPort p (s.port p).setupKept_timeoutTick.mode.trans
  timeoutExpiry s p h := h.updPort p (s.port p).setupKept_timeoutExpiry.mode.trans
  takeWriteReport _ b h := h.takeWriteReport b
  installRecords _ ch h := h.updCalEntry ch id
  emptyCommit _ h := ⟨h.timer, h.lease, h.provisional⟩

end State.OwnersOpen

/-- Settles O55: the postings, the timers and the lease of CLOSED ports, each kept by every kind of work. -/
theorem stepKeepsClosedEmpty : Obligations.StepKeepsClosedEmpty := fun s t h e => by
  obtain ⟨idle, owners⟩ := s.closedOwnsNothing_iff.mp h
  exact t.closedOwnsNothing_iff.mpr ⟨State.ClosedIdle.keptByPorts.keptBySteps.step s t idle e,
    State.OwnersOpen.keptBySteps.step s t owners e⟩

end Sys2Proof.Machine
end

section
/-! SUPPORT. The commands that a port turns away (R145), and OPEN (R147). -/
namespace Sys2Proof.Machine

/-! ### Commands turned away -/

/-- Every command of the list is a command with its code, whose work stands behind the check that the port is OPEN. -/
theorem exec_forOpenPorts {p : Port} {n : Nat} {c : Instr} (mem : (n, c) ∈ commandsForOpenPorts p) (s : State) :
    ∃ body, exec c s = .next (s.command p n fun s => s.whenOpen p body) := by
  simp only [commandsForOpenPorts, List.mem_cons, List.not_mem_nil, or_false, Prod.mk.injEq] at mem
  rcases mem with ⟨rfl, rfl⟩ | ⟨rfl, rfl⟩ | ⟨rfl, rfl⟩ | ⟨rfl, rfl⟩ | ⟨rfl, rfl⟩ | ⟨rfl, rfl⟩ | ⟨rfl, rfl⟩ | ⟨rfl, rfl⟩ |
    ⟨rfl, rfl⟩ | ⟨rfl, rfl⟩ | ⟨rfl, rfl⟩ | ⟨rfl, rfl⟩ | ⟨rfl, rfl⟩ | ⟨rfl, rfl⟩ | ⟨rfl, rfl⟩ | ⟨rfl, rfl⟩ | ⟨rfl, rfl⟩ |
    ⟨rfl, rfl⟩ | ⟨rfl, rfl⟩ | ⟨rfl, rfl⟩
  all_goals exact ⟨_, rfl⟩

/-- On a CLOSED port the check answers CLOSED and nothing is done. -/
theorem State.closedCommand_answered {s : State} {p : Port} (h : s.AtWord p 0x01C) (closed : (s.port p).mode = .closed)
    (n : Nat) (body : State → State × ResultCode) :
    (s.command p n fun s => s.whenOpen p body) = s.answered p (BitVec.ofNat 16 n) n .closed := by
  refine State.command_answered h ?_
  have notOpen : ((s.withCode p (BitVec.ofNat 16 n)).port p).mode ≠ .opened := by simp [closed]
  rw [State.whenOpen, if_neg notOpen]

/-- A code that names a command is not this event (R145). -/
theorem exec_unknownCommand_eq (p : Port) (code : Word) (s : State) : exec (.unknownCommand p code) s =
    .next (if 1 ≤ code.toNat ∧ code.toNat ≤ 23 then s else s.issue p code 0 fun s => (s, .unknownCommand)) := rfl

/-- A code that names no command is written, answered UNKNOWN_COMMAND and recorded as 0. -/
theorem exec_unknownCommand {s : State} {p : Port} {code : Word} (h : s.AtWord p 0x01C)
    (unknown : code.toNat = 0 ∨ 23 < code.toNat) :
    exec (.unknownCommand p code) s = .next (s.answered p code 0 .unknownCommand) := by
  have notNamed : ¬(1 ≤ code.toNat ∧ code.toNat ≤ 23) := by omega
  have issued : s.issue p code 0 (fun s => (s, .unknownCommand)) = s.answered p code 0 .unknownCommand := by
    unfold State.issue
    rw [State.takeWord_of_atWord h (by decide)]
    dsimp only
    rw [State.updPort_updPort, State.updPort_updPort]
    rfl
  rw [exec_unknownCommand_eq, if_neg notNamed, issued]

/-- Settles O15: the unknown codes, and the one check that stands before the work of the 20 commands. -/
theorem commandsTurnedAway : Obligations.CommandsTurnedAway := by
  unfold Obligations.CommandsTurnedAway
  refine ⟨fun p code s h unknown => ⟨code, exec_unknownCommand h unknown⟩, fun p n c s mem h closed => ?_⟩
  obtain ⟨body, e⟩ := exec_forOpenPorts mem s
  exact ⟨_, e.trans (congrArg _ (State.closedCommand_answered h closed n body))⟩

/-! ### OPEN -/

/-- The four answers of OPEN, by its checks in their order (R147). -/
theorem State.openPort_eq (s : State) (p : Port) :
    s.openPort p =
      if (s.port p).mode = .opened then (s, .already)
      else if (s.port p).config.inRange = false then (s, .badField)
      else if 256 < s.poolUse + (s.port p).poolShare then (s, .noRoom)
      else (s.updPort p fun ps =>
        { ps with mode := .opened, ring0 := Ring.empty, ring1 := Ring.empty
                  latest := Vector.replicate 16 LatestSlot.empty
                  timeout := ⟨ps.config.timeoutPreset.toNat, .held, 0⟩, completions := [] }, .ok) := by
  have opened : ∀ ps : PortState,
      { (({ ps with mode := .opened } : PortState).emptySamples).presetTimeout with completions := [] } =
        { ps with mode := .opened, ring0 := Ring.empty, ring1 := Ring.empty
                  latest := Vector.replicate 16 LatestSlot.empty
                  timeout := ⟨ps.config.timeoutPreset.toNat, .held, 0⟩, completions := [] } := fun ps => by
    rw [PortState.emptySamples_eq]
    rfl
  unfold State.openPort
  simp only [opened, Bool.not_eq_true']
  rfl

/-- What OPEN does to the state with its code written is what it does to the state, with the code written. -/
theorem State.openPort_withCode (s : State) (p : Port) (v : Word) :
    (s.withCode p v).openPort p = (((s.openPort p).1).withCode p v, (s.openPort p).2) := by
  have share : ((s.withCode p v).port p).poolShare = (s.port p).poolShare := by
    unfold PortState.poolShare
    rw [State.config_withCode]
  rw [State.openPort_eq, State.openPort_eq, State.mode_withCode, State.config_withCode, State.poolUse_withCode, share]
  split
  · rfl
  · split
    · rfl
    · split
      · rfl
      · exact congrArg (·, ResultCode.ok) (State.updPort_withCode s p p v _ fun _ => rfl)

/-- OPEN answers what its checks say (R147). -/
theorem exec_openPort {s : State} {p : Port} (h : s.AtWord p 0x01C) :
    exec (.openPort p) s = .next ((s.openPort p).1.answered p 1 1 (s.openPort p).2) :=
  congrArg Host.Outcome.next (State.command_answered h (State.openPort_withCode s p _))

/-- The pool use of the three ports, as the statement sums it (R142). -/
theorem State.poolUse_eq_sum (s : State) :
    s.poolUse = ([Port.a, Port.b, Port.c].map fun q => if (s.port q).mode = .opened then
      (s.port q).config.q0.size.toNat + (s.port q).config.q1.size.toNat else 0).sum := by
  simp only [State.poolUse, PortState.poolHeld, PortState.poolShare, List.map_cons, List.map_nil, List.sum_cons, List.sum_nil]
  omega

/-- Settles O16: the checks of OPEN, one case for each answer. -/
theorem openPort : Obligations.OpenPort := by
  unfold Obligations.OpenPort
  intro p s h
  dsimp only
  rw [← s.poolUse_eq_sum]
  have valid_iff := (s.port p).config.inRange_iff
  refine ⟨fun opened => ⟨1, ?_⟩, fun closed bad => ⟨1, ?_⟩, fun closed valid (full : 256 < s.poolUse + (s.port p).poolShare) => ⟨1, ?_⟩,
    fun closed valid (fits : s.poolUse + (s.port p).poolShare ≤ 256) => ⟨1, ?_⟩⟩
  · rw [exec_openPort h, State.openPort_eq, if_pos opened]
  · have notOpen : (s.port p).mode ≠ .opened := by simp [closed]
    rw [exec_openPort h, State.openPort_eq, if_neg notOpen, if_pos (by simpa [← valid_iff] using bad)]
  · have notOpen : (s.port p).mode ≠ .opened := by simp [closed]
    rw [exec_openPort h, State.openPort_eq, if_neg notOpen, if_neg (by simpa [← valid_iff] using valid), if_pos full]
  · have notOpen : (s.port p).mode ≠ .opened := by simp [closed]
    rw [exec_openPort h, State.openPort_eq, if_neg notOpen, if_neg (by simpa [← valid_iff] using valid), if_neg (Nat.not_lt.mpr fits)]

end Sys2Proof.Machine
end

section
/-! SUPPORT. The device reset (R150): the state that it leaves, part by part. -/
namespace Sys2Proof.Machine

/-- The port of the state at reset with a pin of its own. -/
theorem State.port_resetAll (s : State) (b : Bool) (p : Port) :
    (s.resetAll b).port p = { State.reset.port p with lineLow := (s.port p).lineLow } := by
  cases p <;> rfl

/-- A line at its reset settings, with the input's present level (R37). -/
theorem State.line_resetAll (s : State) (b : Bool) (n : Fin 4) :
    (s.resetAll b).line n = { State.reset.line n with level := (s.line n).input, input := (s.line n).input } := by
  have lines : (s.resetAll b).line n = Line.reset (s.line n).input := by
    match n with
    | 0 => rfl
    | 1 => rfl
    | 2 => rfl
    | 3 => rfl
  rw [lines, State.line_reset]
  rfl

/-- The store begins its load, and channel 0's reading takes as long as its records say (R114, R116). -/
theorem State.storeEnd_resetAll (s : State) (b : Bool) : (s.resetAll b).store.opEnd =
    match s.fieldRecord 0 with | .valid _ => 2500 | .unwritten => 5000 | .invalid => 5000 :=
  (State.readingTime_eq _ 0).trans rfl

/-- Settles O6: both moments make the same state but for `inReset`, and its parts are the lemmas above or hold by definition. -/
theorem deviceReset : Obligations.DeviceReset := by
  unfold Obligations.DeviceReset
  intro s
  have begins : exec .deviceReset s = .next (if s.inReset then s else s.resetAll true) := rfl
  have ends : exec .deviceResetEnd s = .next (if s.inReset then s.resetAll false else s) := rfl
  refine ⟨fun lasts => ?_, fun none => ?_, fun c begun moment => ⟨s.resetAll begun, ?_, rfl, rfl, s.port_resetAll begun, rfl, rfl,
    rfl, rfl, rfl, s.line_resetAll begun, rfl, rfl, rfl, s.storeEnd_resetAll begun, rfl, rfl⟩⟩
  · rw [begins, if_pos lasts]
  · rw [ends, if_neg (by simp [none])]
  · obtain ⟨rfl, none, rfl⟩ | ⟨rfl, lasts, rfl⟩ := moment
    · rw [begins, if_neg (by simp [none])]
    · rw [ends, if_pos lasts]

end Sys2Proof.Machine
end

section
/-! SUPPORT. The words that a frame writes (R143, R144): its header and end, parameters, configuration, and the words of
events and watched channels. -/
namespace Sys2Proof.Machine

/-! ### Kinds of words -/

/-- A word that does nothing when written is of the passive kind. -/
theorem wordKind_passive {a : BitVec 12} (passive : takesWrites a = false) : wordKind a = .passive := by
  simp only [takesWrites, Bool.or_eq_false_iff, Bool.and_eq_false_iff, decide_eq_false_iff_not] at passive
  unfold wordKind
  dsimp only
  rw [if_neg (by omega), if_neg (by omega), if_neg (by omega), if_neg (by omega), if_neg (by omega)]
  split
  · rw [if_neg (by omega)]
  · rw [if_neg (by omega), if_neg (by omega)]

/-- The configuration words (§11.3, §11.6). -/
theorem wordKind_configuration {a : BitVec 12}
    (place : (1 ≤ a.toNat ∧ a.toNat ≤ 8) ∨ (0x200 ≤ a.toNat ∧ a.toNat ≤ 0x220)) : wordKind a = .configuration := by
  unfold wordKind
  dsimp only
  split
  · rfl
  · rw [if_neg (by omega), if_neg (by omega), if_neg (by omega), if_neg (by omega), if_neg (by omega), if_pos (by omega)]

/-! ### WRITE_WORD -/

/-- A written word of its kind that changes its port alone. -/
theorem State.takeWord_updPort (s : State) {p : Port} {a : BitVec 12} {k : WordKind} {f : BitVec 12 → PortState → PortState}
    {g : PortState → PortState} (at_a : s.AtWord p a) (kind : wordKind a = k) (same : f a (s.port p) = g (s.port p)) :
    (s.takeWord p k fun a s => s.updPort p (f a)) = (s.updPort p g).wordTaken p :=
  (State.takeWord_of_atWord at_a kind _).trans (congrArg (State.wordTaken p) (s.updPort_congr p same))

/-- WRITE_WORD takes a parameter word where one comes next, else a passive one (R144). -/
theorem exec_writeWord (p : Port) (v : Word) (s : State) : exec (.writeWord p v) s =
    .next (match s.writeAddress p .parameter with
      | some _ => s.takeWord p .parameter fun a s => s.updPort p fun ps => { ps with params := ps.params.write a v }
      | none => s.takeWord p .passive fun _ s => s) := rfl

/-- A write to a parameter word stores it (§11.3). -/
theorem exec_writeWord_parameter {p : Port} {a : BitVec 12} {s : State} (at_a : s.AtWord p a)
    (parameter : wordKind a = .parameter) (v : Word) : exec (.writeWord p v) s =
      .next ((s.updPort p fun ps => { ps with params := ps.params.write a v }).wordTaken p) := by
  have address : s.writeAddress p .parameter = some a := parameter ▸ State.writeAddress_of_atWord at_a
  rw [exec_writeWord, address]
  exact congrArg Host.Outcome.next (State.takeWord_of_atWord at_a parameter _)

/-- A write to a passive word changes nothing (R144). -/
theorem exec_writeWord_passive {p : Port} {a : BitVec 12} {s : State} (at_a : s.AtWord p a)
    (passive : wordKind a = .passive) (v : Word) : exec (.writeWord p v) s = .next (s.wordTaken p) := by
  have address : s.writeAddress p .parameter = none := State.writeAddress_ne at_a (by rw [passive]; decide)
  rw [exec_writeWord, address]
  exact congrArg Host.Outcome.next (State.takeWord_of_atWord at_a passive _)

/-- The data output is driven exactly in a frame outside a device reset (R143, R150). -/
theorem State.misoDriven_iff (s : State) (p : Port) :
    s.misoDriven p = true ↔ s.inReset = false ∧ (s.port p).frame ≠ none := by
  simp [State.misoDriven, Option.isSome_iff_ne_none]

/-- Settles O8: the header by whether a frame can begin, and a written word by its kind. -/
theorem framesAndParameterWords : Obligations.FramesAndParameterWords := by
  unfold Obligations.FramesAndParameterWords
  refine ⟨fun p h s => ?_, fun p v a s at_a => ?_⟩
  · have header : exec (.frameHeader p h) s = .next (if !s.inReset && (s.port p).frame.isNone then
        s.updPort p fun ps => { ps with frame := some (headerFrame ps.lineLow h) } else s) := rfl
    refine ⟨fun outside noFrame => ?_, fun lasts => ?_, rfl, s.misoDriven_iff p⟩
    · rw [header, if_pos (by simp [outside, noFrame])]
      exact congrArg Host.Outcome.next (s.updPort_congr p rfl)
    · rw [header, if_neg (by simp [lasts])]
  · refine ⟨?_, ?_, ?_, ?_, fun passive => exec_writeWord_passive at_a (wordKind_passive passive) v⟩
    all_goals
      rintro rfl
      exact exec_writeWord_parameter at_a (by decide) v

/-! ### CONFIGURATION_WRITE -/

/-- A write to a configuration word, by the mode of its port (R144). -/
theorem exec_configurationWrite {p : Port} {a : BitVec 12} {s : State} (at_a : s.AtWord p a)
    (configuration : wordKind a = .configuration) (v : Word) : exec (.configurationWrite p v) s =
      .next ((s.updPort p fun ps => if ps.mode = .closed then ps.writeConfiguration a v
        else ps.raise .writeDiscarded).wordTaken p) :=
  congrArg Host.Outcome.next (State.takeWord_of_atWord at_a configuration _)

/-- The two words of filter element `k` (§11.6). -/
theorem PortState.writeConfiguration_filter {a : BitVec 12} {k : Fin 16} {w : Nat} (word : w < 2)
    (at_a : a.toNat = 0x200 + w + 2 * k.val) (v : Word) (ps : PortState) : ps.writeConfiguration a v =
      { ps with filters := tset ps.filters k ((tget ps.filters k).write w v) } := by
  have element : (a.toNat - 0x200) / 2 = k.val := by omega
  have half : a.toNat % 2 = w := by omega
  have notUnmatched : a ≠ 0x220 := by
    rintro rfl
    have : (0x220 : BitVec 12).toNat = 544 := rfl
    omega
  have index : (⟨(a.toNat - 0x200) / 2, by omega⟩ : Fin 16) = k := Fin.ext element
  unfold PortState.writeConfiguration
  dsimp only
  rw [if_neg (by omega), if_neg notUnmatched, dif_pos (by omega), index, half]
  rfl

/-- Settles O10: the write by the mode of the port, and by the address while it is CLOSED. -/
theorem configurationWrites : Obligations.ConfigurationWrites := by
  unfold Obligations.ConfigurationWrites
  intro p v a s at_a
  refine ⟨fun opened place => ?_, fun closed => ?_⟩
  · have discarded := exec_configurationWrite at_a (wordKind_configuration place) v
    rw [discarded]
    refine congrArg (fun t => Host.Outcome.next (State.wordTaken p t)) (s.updPort_congr p ?_)
    rw [if_neg (by simp [opened])]
  · have stored : ∀ f : PortState → PortState, wordKind a = .configuration →
        (s.port p).writeConfiguration a v = f (s.port p) →
        exec (.configurationWrite p v) s = .next ((s.updPort p f).wordTaken p) := fun f configuration writes => by
      rw [exec_configurationWrite at_a configuration v]
      refine congrArg (fun t => Host.Outcome.next (State.wordTaken p t)) (s.updPort_congr p ?_)
      rw [if_pos closed, writes]
    refine ⟨?_, ?_, ?_, ?_, ?_, ?_, ?_, ?_, ?_, fun k => ⟨fun at_first => ?_, fun at_second => ?_⟩⟩
    case refine_10 =>
      exact stored _ (wordKind_configuration (by omega)) (PortState.writeConfiguration_filter (w := 0) (by omega) at_first v _)
    case refine_11 =>
      exact stored _ (wordKind_configuration (by omega)) (PortState.writeConfiguration_filter (w := 1) (by omega) at_second v _)
    all_goals
      rintro rfl
      exact stored _ (by decide) rfl

/-! ### Events and watched channels -/

/-- Bit `b` of the bits that a write to word 0 or 1 of the flags or enables names (§11.8). -/
theorem getLsbD_eventWordBits (second : Bool) (v : Word) {b : Nat} (hb : b < 22) : (eventWordBits second v).getLsbD b =
    if second then decide (16 ≤ b) && v.getLsbD (b - 16) else decide (b < 16) && v.getLsbD b := by
  have within : v.getLsbD b = (decide (b < 16) && v.getLsbD b) := by
    by_cases low : b < 16
    · simp [low]
    · simp [low, BitVec.getLsbD_of_ge v b (by omega)]
  cases second
  · simpa [eventWordBits, hb] using within
  · by_cases high : 16 ≤ b
    · simp [eventWordBits, hb, high]
    · simp [eventWordBits, hb, high, Nat.lt_of_not_le high]

/-- Bit `b` of the set of channels that a watched-channel word names (§11.2). -/
theorem getLsbD_watchedBits (second : Bool) (v : Word) {b : Nat} (hb : b < 32) : (watchedBits second v).getLsbD b =
    if second then decide (16 ≤ b) && v.getLsbD (b - 16) else decide (b < 16) && v.getLsbD b := by
  have within : v.getLsbD b = (decide (b < 16) && v.getLsbD b) := by
    by_cases low : b < 16
    · simp [low]
    · simp [low, BitVec.getLsbD_of_ge v b (by omega)]
  cases second
  · simpa [watchedBits, hb] using within
  · by_cases high : 16 ≤ b
    · simp [watchedBits, hb, high]
    · simp [watchedBits, hb, high, Nat.lt_of_not_le high]

/-- Every bit of the 22 is the bit of an event. -/
theorem Event.exists_bit {b : Nat} (hb : b < 22) : ∃ e : Event, e.bit = b := by
  have onto : ∀ k : Fin 22, (Event.ofNat k.val).bit = k.val := by decide
  exact ⟨Event.ofNat b, onto ⟨b, hb⟩⟩

/-- The interrupt line is low exactly while an event has its flag and its enable set (R152). -/
theorem PortState.irqHigh_eq_false_iff (ps : PortState) :
    ps.irqHigh = false ↔ ∃ e : Event, ps.flag e = true ∧ ps.enabled e = true := by
  constructor
  · intro low
    have differs : ps.flags &&& ps.enables ≠ 0 := by simpa [PortState.irqHigh] using low
    refine Classical.byContradiction fun none => ?_
    refine differs (BitVec.eq_of_getLsbD_eq fun b hb => ?_)
    obtain ⟨e, rfl⟩ := Event.exists_bit hb
    simpa [PortState.flag, PortState.enabled] using fun flag enable => none ⟨e, flag, enable⟩
  · rintro ⟨e, flag, enable⟩
    have both : (ps.flags &&& ps.enables).getLsbD e.bit = true := by
      rw [BitVec.getLsbD_and]
      exact Bool.and_eq_true_iff.mpr ⟨flag, enable⟩
    have differs : ps.flags &&& ps.enables ≠ 0 := fun zero => by simp [zero] at both
    simpa [PortState.irqHigh] using differs

/-- A raised event sets its bit and no other. -/
theorem getLsbD_raise (flags : BitVec 22) (e : Event) (b : Nat) :
    (flags ||| BitVec.twoPow 22 e.bit).getLsbD b = (flags.getLsbD b || decide (b = e.bit)) := by
  have inFlags : e.bit < 22 := by cases e <;> decide
  rw [BitVec.getLsbD_or, BitVec.getLsbD_twoPow]
  simp [inFlags, eq_comm]

/-- The mask of word 0 or 1 holds the places of that word. -/
theorem getLsbD_eventWordMask (second : Bool) {b : Nat} (hb : b < 22) :
    (eventWordMask second).getLsbD b = (decide (16 ≤ b) == second) := by
  have places : ∀ b, b < 22 → ∀ second, (eventWordMask second).getLsbD b = (decide (16 ≤ b) == second) := by decide
  exact places b hb second

/-- The enables after a write of word 0 or 1 (R152). -/
theorem getLsbD_writeEnables (second : Bool) (v : Word) (enables : BitVec 22) {b : Nat} (hb : b < 22) :
    ((enables &&& ~~~(eventWordMask second)) ||| eventWordBits second v).getLsbD b =
      if decide (16 ≤ b) = second then v.getLsbD (if second then b - 16 else b) else enables.getLsbD b := by
  rw [BitVec.getLsbD_or, BitVec.getLsbD_and, BitVec.getLsbD_not, decide_eq_true hb, getLsbD_eventWordMask _ hb,
    getLsbD_eventWordBits _ _ hb]
  by_cases high : 16 ≤ b
  · have notLow : ¬b < 16 := by omega
    rw [decide_eq_true high, decide_eq_false notLow]
    cases second
    · exact Bool.or_false _ |>.trans (Bool.and_true _)
    · exact (congrArg (· || _) (Bool.and_false _)).trans (Bool.false_or _)
  · have low : b < 16 := by omega
    rw [decide_eq_false high, decide_eq_true low]
    cases second
    · exact (congrArg (· || _) (Bool.and_false _)).trans (Bool.false_or _)
    · exact Bool.or_false _ |>.trans (Bool.and_true _)

/-- Settles O11: the bits of a raise and of each written word, and the line by its events. -/
theorem eventWords : Obligations.EventWords := by
  unfold Obligations.EventWords
  have cleared : ∀ {n : Nat} (x y : BitVec n) {b : Nat}, b < n →
      (x &&& ~~~y).getLsbD b = (x.getLsbD b && !(y.getLsbD b)) := fun x y b hb => by
    rw [BitVec.getLsbD_and, BitVec.getLsbD_not, decide_eq_true hb, Bool.true_and]
  refine ⟨⟨fun p e s => ⟨_, fun b _ => getLsbD_raise _ e b, s.updPort_congr p rfl⟩, fun p v s => ⟨fun at_a => ?_, fun at_a => ?_⟩⟩,
    ⟨fun p v s => ⟨fun at_a => ?_, fun at_a => ?_⟩, fun p s => ?_⟩, fun p v s => ⟨fun at_a => ?_, fun at_a => ?_⟩⟩
  · refine ⟨(s.port p).flags &&& ~~~(eventWordBits false v), fun b hb => ?_, ?_⟩
    · rw [cleared _ _ hb, getLsbD_eventWordBits _ _ hb]
      rfl
    · exact congrArg Host.Outcome.next (s.takeWord_updPort at_a (by decide) rfl)
  · refine ⟨(s.port p).flags &&& ~~~(eventWordBits true v), fun b hb => ?_, ?_⟩
    · rw [cleared _ _ hb, getLsbD_eventWordBits _ _ hb]
      rfl
    · exact congrArg Host.Outcome.next (s.takeWord_updPort at_a (by decide) rfl)
  · refine ⟨_, fun b hb => (getLsbD_writeEnables false v (s.port p).enables hb).trans ?_, ?_⟩
    · by_cases low : b < 16
      · rw [if_pos low, decide_eq_false (Nat.not_le.mpr low)]
        rfl
      · rw [if_neg low, decide_eq_true (Nat.not_lt.mp low)]
        rfl
    · exact congrArg Host.Outcome.next (s.takeWord_updPort at_a (by decide) rfl)
  · refine ⟨_, fun b hb => (getLsbD_writeEnables true v (s.port p).enables hb).trans ?_, ?_⟩
    · by_cases low : b < 16
      · rw [if_pos low, decide_eq_false (Nat.not_le.mpr low)]
        rfl
      · rw [if_neg low, decide_eq_true (Nat.not_lt.mp low)]
        rfl
    · exact congrArg Host.Outcome.next (s.takeWord_updPort at_a (by decide) rfl)
  · rw [State.irqHigh, Bool.or_eq_false_iff, PortState.irqHigh_eq_false_iff]
  · refine ⟨(s.port p).watched &&& ~~~(watchedBits false v), fun b hb => ?_, ?_⟩
    · rw [cleared _ _ hb, getLsbD_watchedBits _ _ hb]
      rfl
    · exact congrArg Host.Outcome.next (s.takeWord_updPort at_a (by decide) rfl)
  · refine ⟨(s.port p).watched &&& ~~~(watchedBits true v), fun b hb => ?_, ?_⟩
    · rw [cleared _ _ hb, getLsbD_watchedBits _ _ hb]
      rfl
    · exact congrArg Host.Outcome.next (s.takeWord_updPort at_a (by decide) rfl)

end Sys2Proof.Machine
end

section
/-! SUPPORT. What a CLOSE and a port reset make of each part of the part (R148, R149). -/
namespace Sys2Proof.Machine

/-! ### CLOSE, part by part -/

/-- The state in which a CLOSE gives up its port's timers: its postings have ended and its records have left the pipeline. -/
def State.leaving (p : Port) (s : State) : State := ((s.takePortReports p).endPortPostings p).leavePipeline p

theorem State.kept_leaving (s : State) (p : Port) : s.Kept (s.leaving p) :=
  ((s.kept_takePortReports p).trans (State.kept_endPortPostings _ p)).trans (State.kept_leavePipeline _ p)

theorem State.PacingKept.leaving (s : State) (p : Port) : s.PacingKept (s.leaving p) :=
  ((State.PacingKept.takeReports s _).trans (.endPortPostings _ p)).trans (.leavePipeline _ p)

theorem State.closing_eq (s : State) (p : Port) : s.closing p = (s.leaving p).releaseTimers p := rfl

/-- The release of a port's timers touches timers alone (R36). -/
theorem State.releaseTimers_eq (s : State) (p : Port) : ∃ ts, s.releaseTimers p = { s with timers := ts } := by
  refine List.foldlRecOn (motive := fun t : State => ∃ ts, t = { s with timers := ts }) allTimers _ ⟨s.timers, rfl⟩ ?_
  rintro _ ⟨ts, rfl⟩ n -
  split
  · exact ⟨_, rfl⟩
  · exact ⟨ts, rfl⟩

/-- After the pipeline, a CLOSE touches the timers, the lease (with a free value for it) and its own port. -/
theorem State.closeEffects_eq_leaving (s : State) (p : Port) : ∃ ts c k, s.closeEffects p =
    { (s.leaving p).updPort p PortState.shut with timers := ts, cal := c, freeCount := k } := by
  obtain ⟨ts, timers⟩ := (s.leaving p).releaseTimers_eq p
  obtain ⟨c, k, lease⟩ := ((s.leaving p).releaseTimers p).leaveLease_eq p
  refine ⟨ts, c, k, ?_⟩
  calc s.closeEffects p
      = (((s.leaving p).releaseTimers p).leaveLease p).updPort p PortState.shut := rfl
    _ = { (s.leaving p).updPort p PortState.shut with timers := ts, cal := c, freeCount := k } := by
      rw [lease, timers]
      rfl

section
variable (s : State) (p : Port)

theorem State.port_closeEffects_self : (s.closeEffects p).port p = ((s.leaving p).port p).shut := by
  obtain ⟨ts, c, k, e⟩ := s.closeEffects_eq_leaving p
  rw [e]
  exact State.port_updPort_self _ p _

theorem State.port_closeEffects_ne {q : Port} (other : q ≠ p) : (s.closeEffects p).port q = (s.leaving p).port q := by
  obtain ⟨ts, c, k, e⟩ := s.closeEffects_eq_leaving p
  rw [e]
  exact State.port_updPort_ne _ _ other

theorem State.slot_closeEffects (i : SlotId) : (s.closeEffects p).slot i = (s.leaving p).slot i := by
  obtain ⟨ts, c, k, e⟩ := s.closeEffects_eq_leaving p
  rw [e]
  rfl

theorem State.arbiter_closeEffects : (s.closeEffects p).arbiter = (s.leaving p).arbiter := by
  obtain ⟨ts, c, k, e⟩ := s.closeEffects_eq_leaving p
  rw [e]
  rfl

theorem State.lastGranted_closeEffects : (s.closeEffects p).arbiter.lastGranted = s.arbiter.lastGranted :=
  (congrArg Arbiter.lastGranted (s.arbiter_closeEffects p)).trans (State.PacingKept.leaving s p).lastGranted

theorem State.lines_closeEffects : (s.closeEffects p).lines = s.lines := by
  obtain ⟨ts, c, k, e⟩ := s.closeEffects_eq_leaving p
  rw [e]
  exact (s.kept_leaving p).lines

theorem State.store_closeEffects : (s.closeEffects p).store = s.store := by
  obtain ⟨ts, c, k, e⟩ := s.closeEffects_eq_leaving p
  rw [e]
  exact (s.kept_leaving p).store

theorem State.now_closeEffects : (s.closeEffects p).now = s.now := by
  obtain ⟨ts, c, k, e⟩ := s.closeEffects_eq_leaving p
  rw [e]
  exact (s.kept_leaving p).now

/-- A port keeps its setup through a CLOSE; the closing port alone changes its mode. -/
theorem State.setup_closeEffects_ne {q : Port} (other : q ≠ p) : (s.port q).SetupKept ((s.closeEffects p).port q) := by
  rw [s.port_closeEffects_ne p other]
  exact (s.kept_leaving p).setup q

/-- A released timer keeps its stored settings (R35). -/
theorem Timer.settings_release (t : Timer) : t.release.prescale = t.prescale ∧ t.release.period = t.period := by
  unfold Timer.release
  split
  · split <;> exact ⟨rfl, rfl⟩
  · split <;> exact ⟨rfl, rfl⟩
  all_goals exact ⟨rfl, rfl⟩

theorem State.timer_closeEffects (n : Fin 4) :
    (s.closeEffects p).timer n = ((s.leaving p).releaseTimers p).timer n := by
  rw [State.closeEffects_eq, State.timer_updPort, State.timer_leaveLease, State.closing_eq]

/-- A CLOSE leaves every timer's stored settings. -/
theorem State.timerSettings_closeEffects (n : Fin 4) :
    ((s.closeEffects p).timer n).prescale = (s.timer n).prescale ∧
      ((s.closeEffects p).timer n).period = (s.timer n).period := by
  have before := (State.PacingKept.leaving s p).timer n
  have released := ((s.leaving p).timer n).settings_release
  rw [State.timer_closeEffects, State.timer_releaseTimers]
  split
  · exact ⟨released.1.trans before.prescale, released.2.trans before.period⟩
  · exact ⟨before.prescale, before.period⟩

/-- The Calibration Unit after a CLOSE is that of the end of the lease. -/
theorem State.cal_closeEffects : (s.closeEffects p).cal = ((s.closing p).leaveLease p).cal := by
  rw [State.closeEffects_eq, State.cal_updPort]

/-- A CLOSE of the holder ends the lease and discards every provisional part (R100). -/
theorem State.cal_closeEffects_of_holds (holds : s.HoldsLease p) : (s.closeEffects p).cal.lease.holder = none ∧
    (s.closeEffects p).cal.commit = s.cal.commit ∧
    ∀ ch, (s.closeEffects p).calEntry ch = { s.calEntry ch with provisional := none } := by
  have cal := (s.kept_closing p).cal
  have left : (s.closing p).leaveLease p = (s.closing p).dropLease := if_pos (by rw [cal]; exact holds)
  obtain ⟨table, r, dropped, -, discarded⟩ := (s.closing p).dropLease_eq
  have ended := left.trans dropped
  refine ⟨?_, ?_, fun ch => ?_⟩
  · rw [State.cal_closeEffects, ended]
  · rw [State.cal_closeEffects, ended, cal]
  · have entry : (s.closeEffects p).calEntry ch = tget table (channelIndex ch) := by
      unfold State.calEntry
      rw [State.cal_closeEffects, ended]
    rw [entry, discarded, cal]
    rfl

/-- A CLOSE of any other port leaves the Calibration Unit. -/
theorem State.cal_closeEffects_of_not (free : ¬s.HoldsLease p) : (s.closeEffects p).cal = s.cal := by
  have cal := (s.kept_closing p).cal
  have stays : (s.closing p).leaveLease p = s.closing p := if_neg (by rw [cal]; exact free)
  rw [State.cal_closeEffects, stays, cal]

/-- A CLOSE leaves the committed parts (R100). -/
theorem State.committed_closeEffects (ch : Channel) :
    ((s.closeEffects p).calEntry ch).committed = (s.calEntry ch).committed ∧
      ((s.closeEffects p).calEntry ch).commitPending = (s.calEntry ch).commitPending := by
  by_cases holds : s.HoldsLease p
  · obtain ⟨-, -, entries⟩ := s.cal_closeEffects_of_holds p holds
    rw [entries]
    exact ⟨rfl, rfl⟩
  · have cal := s.cal_closeEffects_of_not p holds
    have entry : (s.closeEffects p).calEntry ch = s.calEntry ch := by
      unfold State.calEntry
      rw [cal]
    rw [entry]
    exact ⟨rfl, rfl⟩

end

/-! ### Port reset -/

/-- A port reset is the emptying of the port and its slots, from the state that a CLOSE leaves if the port is OPEN. -/
theorem State.portReset_parts (s : State) (p : Port) {c : State}
    (from_c : (if (s.port p).mode = .opened then s.closeEffects p else s) = c) :
    s.portReset p = { c.updPort p (fun _ => (s.portReset p).port p) with slots := (s.portReset p).slots } ∧
      (s.portReset p).port p = (c.port p).clear ∧ (∀ i, slotOwner i = p → (s.portReset p).slot i = Slot.reset) ∧
      ∀ i, slotOwner i ≠ p → (s.portReset p).slot i = c.slot i := by
  obtain ⟨v, e, slots⟩ := s.portReset_eq p
  rw [from_c] at e slots
  have port : (s.portReset p).port p = (c.port p).clear := by
    rw [e]
    exact c.port_updPort_self p _
  have slot : ∀ i, (s.portReset p).slot i = tget v i := fun i => by
    rw [e]
    rfl
  refine ⟨?_, port, fun i own => ?_, fun i other => ?_⟩
  · rw [c.updPort_congr p (g := PortState.clear) port, e]
  · rw [slot, slots, if_pos own]
  · rw [slot, slots, if_neg other]

/-- The cleared port is the port at reset but for its words and its pin. -/
theorem PortState.clear_eq (ps : PortState) (p : Port) : ps.clear = { State.reset.port p with
    commandWord := ps.commandWord, result := ps.result, frame := ps.frame, lineLow := ps.lineLow } := by
  rw [State.port_reset]
  rfl

theorem PortState.words_shut (ps : PortState) : ps.shut.commandWord = ps.commandWord ∧ ps.shut.result = ps.result ∧
    ps.shut.frame = ps.frame ∧ ps.shut.lineLow = ps.lineLow :=
  have kept := ps.setupKept_emptySamples
  ⟨kept.commandWord, kept.result, kept.frame, kept.lineLow⟩

/-- A CLOSE keeps the port's command word, result word, frame and pin. -/
theorem State.words_closeEffects (s : State) (p : Port) :
    ((s.closeEffects p).port p).commandWord = (s.port p).commandWord ∧
      ((s.closeEffects p).port p).result = (s.port p).result ∧ ((s.closeEffects p).port p).frame = (s.port p).frame ∧
      ((s.closeEffects p).port p).lineLow = (s.port p).lineLow := by
  have before := (s.kept_leaving p).setup p
  obtain ⟨command, result, frame, lineLow⟩ := ((s.leaving p).port p).words_shut
  rw [State.port_closeEffects_self, command, result, frame, lineLow]
  exact ⟨before.commandWord, before.result, before.frame, before.lineLow⟩

/-- The port after a port reset (R149). -/
theorem State.port_portReset_self (s : State) (p : Port) : (s.portReset p).port p = { State.reset.port p with
    commandWord := (s.port p).commandWord, result := (s.port p).result, frame := (s.port p).frame
    lineLow := (s.port p).lineLow } := by
  obtain ⟨-, port, -⟩ := s.portReset_parts p rfl
  rw [port, PortState.clear_eq _ p]
  split
  · obtain ⟨command, result, frame, lineLow⟩ := s.words_closeEffects p
    rw [command, result, frame, lineLow]
  · rfl

/-- `t` keeps of `s` what a port reset of port `p` never touches: the settings of other slots and ports, lines, store, the
last-granted port, the time, the timers' stored settings and the committed parts. -/
structure State.RestKept (p : Port) (s t : State) : Prop where
  fields : ∀ i, slotOwner i ≠ p → (t.slot i).fields = (s.slot i).fields
  setup : ∀ q, q ≠ p → (s.port q).SetupKept (t.port q)
  lines : t.lines = s.lines
  store : t.store = s.store
  lastGranted : t.arbiter.lastGranted = s.arbiter.lastGranted
  now : t.now = s.now
  timers : ∀ n, (t.timer n).prescale = (s.timer n).prescale ∧ (t.timer n).period = (s.timer n).period
  entries : ∀ ch, (t.calEntry ch).committed = (s.calEntry ch).committed ∧
    (t.calEntry ch).commitPending = (s.calEntry ch).commitPending

theorem State.restKept_refl (s : State) (p : Port) : State.RestKept p s s :=
  ⟨fun _ _ => rfl, fun _ _ => .refl _, rfl, rfl, rfl, rfl, fun _ => ⟨rfl, rfl⟩, fun _ => ⟨rfl, rfl⟩⟩

theorem State.restKept_closeEffects (s : State) (p : Port) : State.RestKept p s (s.closeEffects p) where
  fields i _ := (congrArg Slot.fields (s.slot_closeEffects p i)).trans ((s.kept_leaving p).fields i)
  setup _ other := s.setup_closeEffects_ne p other
  lines := s.lines_closeEffects p
  store := s.store_closeEffects p
  lastGranted := s.lastGranted_closeEffects p
  now := s.now_closeEffects p
  timers := s.timerSettings_closeEffects p
  entries := s.committed_closeEffects p

/-- A port reset keeps it, in either mode of its port. -/
theorem State.restKept_portReset (s : State) (p : Port) : State.RestKept p s (s.portReset p) := by
  obtain ⟨c, from_c, kept⟩ : ∃ c, (if (s.port p).mode = .opened then s.closeEffects p else s) = c ∧ State.RestKept p s c := by
    split
    · exact ⟨_, rfl, s.restKept_closeEffects p⟩
    · exact ⟨_, rfl, s.restKept_refl p⟩
  obtain ⟨e, -, -, slots⟩ := s.portReset_parts p from_c
  have fields : ∀ i, slotOwner i ≠ p → ((s.portReset p).slot i).fields = (s.slot i).fields := fun i other =>
    (congrArg Slot.fields (slots i other)).trans (kept.fields i other)
  have setup : ∀ q, q ≠ p → (s.port q).SetupKept ((c.updPort p fun _ => (s.portReset p).port p).port q) := fun q other => by
    rw [c.port_updPort_ne _ other]
    exact kept.setup q other
  rw [e] at fields ⊢
  exact ⟨fields, setup, kept.lines, kept.store, kept.lastGranted,
    kept.now, kept.timers, kept.entries⟩

/-! ### RESET_PORT and the port reset line -/

/-- The code that stands in the command word may be written again. -/
theorem State.withCode_id {s : State} {p : Port} {w : Word} (code : (s.port p).commandWord = w) : s.withCode p w = s :=
  State.updPort_id (by rw [← code])

/-- RESET_PORT, by whether it meets the line's reset (R149). -/
theorem exec_resetPort_eq (p : Port) (s : State) : exec (.resetPort p) s = .next (if s.meetsLineReset p then
    ((s.withCode p 3).portReset p).updPort p (PortState.answer 3 .ok) else s.command p 3 (State.resetByCommand p)) := rfl

/-- RESET_PORT in its own frame is answered OK (R149). -/
theorem exec_resetPort {s : State} {p : Port} (at_command : s.AtWord p 0x01C) :
    exec (.resetPort p) s = .next (((s.withCode p 3).portReset p).answered p 3 3 .ok) := by
  have code : (((s.withCode p 3).portReset p).port p).commandWord = 3 := by
    rw [State.port_portReset_self, State.port_withCode, if_pos rfl]
  rw [exec_resetPort_eq, State.meetsLineReset_of_atWord at_command, if_neg nofun]
  refine congrArg Host.Outcome.next (State.command_answered at_command ?_)
  have written : ((s.withCode p 3).portReset p).withCode p 3 = (s.withCode p 3).portReset p :=
    State.withCode_id code
  exact Prod.ext written.symm rfl

/-- A frame has come to the command word exactly if the port's next word is its command word (R144). -/
theorem State.atCommand_iff (s : State) (p : Port) : (s.port p).frame.any Frame.atCommand = true ↔ s.AtWord p 0x01C := by
  unfold State.AtWord
  cases (s.port p).frame with
  | none => simp
  | some f => simp [Frame.atCommand, and_assoc]

/-- A RESET_PORT that meets the line's reset is a second port reset (R149). -/
theorem exec_resetPort_meets {s : State} {p : Port} (meets : s.meetsLineReset p = true) :
    exec (.resetPort p) s = .next (((s.withCode p 3).portReset p).updPort p fun ps =>
      { ps with result := ⟨.ok, 3, (s.port p).result.count + 1⟩ }) := by
  have count : (((s.withCode p 3).portReset p).port p).result.count = (s.port p).result.count := by
    rw [State.port_portReset_self, State.port_withCode, if_pos rfl]
  rw [exec_resetPort_eq, if_pos meets]
  refine congrArg Host.Outcome.next (State.updPort_congr _ p ?_)
  rw [PortState.answer, count]

/-- A command in an ignored frame changes nothing (R149). -/
theorem State.command_ignored {s : State} {p : Port} {f : Frame} (frame : (s.port p).frame = some f)
    (ignored : f.ignored = true) (n : Nat) (body : State → State × ResultCode) : s.command p n body = s := by
  unfold State.command State.issue
  exact State.takeWord_ignored frame ignored .command _

/-- WRITE_WORD in an ignored frame changes nothing (R149). -/
theorem exec_writeWord_ignored {s : State} {p : Port} {f : Frame} (frame : (s.port p).frame = some f)
    (ignored : f.ignored = true) (v : Word) : exec (.writeWord p v) s = .next s := by
  have address : s.writeAddress p .parameter = none := by simp [State.writeAddress, frame, ignored]
  rw [exec_writeWord, address]
  exact congrArg Host.Outcome.next (State.takeWord_ignored frame ignored _ _)

/-- Settles O7: RESET_PORT, the port reset by the lemmas above, the line, and the ignored frames. -/
theorem portReset : Obligations.PortReset := by
  unfold Obligations.PortReset
  refine ⟨fun p s at_command => ⟨3, exec_resetPort at_command⟩, fun p s => ?_, fun p s => ⟨fun low => ?_, fun high => ?_,
    fun low noFrame cut => ⟨3, exec_resetPort_meets ?_⟩, fun low a => State.readWord_lineLow low a, rfl⟩,
    fun p f s frame ignored => ?_⟩
  · obtain ⟨fields, setup, lines, store, last, now, timers, entries⟩ := s.restKept_portReset p
    refine ⟨s.port_portReset_self p, fun i own => ?_, fun closed => ?_, fun opened => ?_, fields,
      fun q other => ⟨(setup q other).mode, (setup q other).config, (setup q other).filters, (setup q other).enables⟩,
      lines, store, last, now, timers, entries⟩
    · obtain ⟨-, -, own_slots, -⟩ := s.portReset_parts p rfl
      rw [own_slots i own, State.slot_reset]
    · obtain ⟨e, -, -, slots⟩ := s.portReset_parts p (if_neg (by simp [closed]))
      exact ⟨e, slots⟩
    · obtain ⟨e, -, -, slots⟩ := s.portReset_parts p (if_pos opened)
      exact ⟨e, slots⟩
  · have run : exec (.portResetLine p) s = .next (s.portResetLine p) := rfl
    rw [run, State.portResetLine, if_pos low]
  · have run : exec (.portResetLine p) s = .next ((s.portReset p).updPort p fun ps =>
        { ps with lineLow := true, frame := none, result := ⟨.ok, 0, 0⟩
                  lineCut := if (s.port p).frame.any Frame.atCommand then some s.now else none }) := by
      have line : exec (.portResetLine p) s = .next (s.portResetLine p) := rfl
      rw [line, State.portResetLine, if_neg (by simp [high])]
      rfl
    have meets := s.atCommand_iff p
    refine ⟨_, fun at_command => if_pos (meets.mpr at_command), fun elsewhere => if_neg fun any => elsewhere (meets.mp any),
      run, _, run, ?_⟩
    rw [State.port_updPort_self, State.port_portReset_self, State.port_reset]
    rfl
  · simp [State.meetsLineReset, low, noFrame, cut]
  · have captures : ∀ a rest, (Host.Outcome.next (s.captureRead p a rest) : Host.Outcome State Fault Refusal) = .next s :=
      fun a rest => congrArg Host.Outcome.next (State.captureRead_ignored frame ignored a rest)
    have words : ∀ k body, (Host.Outcome.next (s.takeWord p k body) : Host.Outcome State Fault Refusal) = .next s :=
      fun k body => congrArg Host.Outcome.next (State.takeWord_ignored frame ignored k body)
    have commands : ∀ n body, (Host.Outcome.next (s.command p n body) : Host.Outcome State Fault Refusal) = .next s :=
      fun n body => congrArg Host.Outcome.next (State.command_ignored frame ignored n body)
    refine ⟨fun a => State.readWord_ignored frame ignored a, fun v c mem => ?_, fun i k => captures _ _,
      fun h => captures _ _, fun n c mem => ?_⟩
    · simp only [List.mem_cons, List.not_mem_nil, or_false] at mem
      rcases mem with rfl | rfl | rfl | rfl | rfl | rfl | rfl | rfl | rfl | rfl | rfl | rfl
      · exact exec_writeWord_ignored frame ignored v
      · exact words _ _
      · exact words _ _
      · exact words _ _
      · exact words _ _
      · exact words _ _
      · rw [exec_unknownCommand_eq]
        split
        · rfl
        · exact words _ _
      · exact commands _ _
      · have noMeeting : s.meetsLineReset p = false := by simp [State.meetsLineReset, frame]
        rw [exec_resetPort_eq, noMeeting, if_neg nofun]
        exact commands _ _
      · exact commands _ _
      · exact captures _ _
      · exact captures _ _
    · obtain ⟨body, run⟩ := exec_forOpenPorts mem s
      rw [run, State.command_ignored frame ignored]

end Sys2Proof.Machine
end

section
/-! SUPPORT. Work on the requests of one port (R13-R16, R87): what it leaves of the others, what the endings of a CLOSE return
and which stamps they give up. -/
namespace Sys2Proof.Machine

/-! ### What work on one port's requests leaves -/

/-- `t` differs from `s` in port `p`, its slots, timers, the arbiter, the cuts handed over and the reports that wait; the port
keeps its watched set and its timeout counter. -/
structure State.OffPort (p : Port) (s t : State) : Prop where
  port : ∀ q, q ≠ p → t.port q = s.port q
  slot : ∀ i, slotOwner i ≠ p → t.slot i = s.slot i
  seq : ∃ cuts reports, t.seq = { s.seq with cuts := cuts, reports := reports }
  watched : (t.port p).watched = (s.port p).watched
  timeout : (t.port p).timeout = (s.port p).timeout

namespace State.OffPort
variable {p : Port} {s t u : State}

theorem of_same (ports : t.ports = s.ports) (slots : t.slots = s.slots)
    (seq : ∃ cuts reports, t.seq = { s.seq with cuts := cuts, reports := reports }) : State.OffPort p s t := by
  have port : ∀ q, t.port q = s.port q := fun q => congrArg (Ports.port · q) ports
  exact ⟨fun q _ => port q, fun i _ => congrArg (tget · i) slots, seq, congrArg PortState.watched (port p),
    congrArg PortState.timeout (port p)⟩

theorem refl (s : State) : State.OffPort p s s := of_same rfl rfl ⟨_, _, rfl⟩

theorem trans (h : State.OffPort p s t) (k : State.OffPort p t u) : State.OffPort p s u where
  port q other := (k.port q other).trans (h.port q other)
  slot i other := (k.slot i other).trans (h.slot i other)
  seq := by
    obtain ⟨_, _, first⟩ := h.seq
    obtain ⟨cuts, reports, second⟩ := k.seq
    exact ⟨cuts, reports, by rw [second, first]⟩
  watched := k.watched.trans h.watched
  timeout := k.timeout.trans h.timeout

theorem foldl {f : State → SlotId → State} {l : List SlotId} (s : State)
    (hf : ∀ s, ∀ i ∈ l, State.OffPort p s (f s i)) : State.OffPort p s (l.foldl f s) :=
  List.foldlRecOn (motive := fun t : State => State.OffPort p s t) l f (refl s) fun t ht i hi => ht.trans (hf t i hi)

theorem updPort (s : State) {f : PortState → PortState} (watched : (f (s.port p)).watched = (s.port p).watched)
    (timeout : (f (s.port p)).timeout = (s.port p).timeout) : State.OffPort p s (s.updPort p f) where
  port q other := s.port_updPort_ne f other
  slot _ _ := rfl
  seq := ⟨_, _, rfl⟩
  watched := by rw [State.port_updPort_self, watched]
  timeout := by rw [State.port_updPort_self, timeout]

theorem updSlot (s : State) {i : SlotId} (own : slotOwner i = p) (f : Slot → Slot) : State.OffPort p s (s.updSlot i f) where
  port _ _ := rfl
  slot _ other := s.slot_updSlot_ne f fun e => other (e ▸ own)
  seq := ⟨_, _, rfl⟩
  watched := rfl
  timeout := rfl

theorem makeDue (s : State) {ids : List SlotId} (own : ∀ i ∈ ids, slotOwner i = p) : State.OffPort p s (s.makeDue ids) := by
  unfold State.makeDue
  split
  · exact refl s
  · exact (foldl s fun t i hi => updSlot t (own i hi) _).trans (of_same rfl rfl ⟨_, _, rfl⟩)

theorem addCompletion (s : State) (r : CompletionRecord) : State.OffPort p s (s.updPort p (PortState.addCompletion r)) := by
  refine updPort s ?_ ?_
  all_goals
    unfold PortState.addCompletion
    split <;> rfl

theorem returnStalled (s : State) (q : QueueId) : State.OffPort p s (s.returnStalled p q) :=
  foldl s fun t i hi => by
    split
    · exact updSlot t ((mem_portSlots p i).mp hi) _
    · exact refl t

theorem returnHeld (s : State) (x : Slot) (examine : Bool) : State.OffPort p s (s.returnHeld p x examine) := by
  unfold State.returnHeld
  split
  · exact refl s
  · split
    · next q _ =>
      have returned : State.OffPort p s
          (s.updPort p fun ps => ps.updRing q fun r => { r with reserved := r.reserved - x.held }) :=
        updPort s (PortState.watched_updRing _ q _) (PortState.timeout_updRing _ q _)
      dsimp only
      split
      · exact returned.trans (returnStalled _ q)
      · exact returned
    · exact refl s

/-- The ending of a posting of the port (R16, R17). -/
theorem endPosting (s : State) {i : SlotId} (own : slotOwner i = p) (o : Option EndOutcome) :
    State.OffPort p s (s.endPosting i o) := by
  subst own
  have ended : ∀ t : State, State.OffPort (slotOwner i) t (((((t.updSlot i Slot.ended).dropTimerRef
      (s.slot i).fields).pruneStamps).forgetCut i).returnHeld (slotOwner i) (s.slot i) o.isSome) := fun t => by
    obtain ⟨ts, e⟩ := (t.updSlot i Slot.ended).dropTimerRef_eq (s.slot i).fields
    rw [e]
    refine (updSlot t rfl Slot.ended).trans (trans ?_ (returnHeld _ _ _))
    exact of_same rfl rfl ⟨_, _, rfl⟩
  unfold State.endPosting
  dsimp only
  split
  · exact refl s
  · cases o with
    | none => exact ended s
    | some o => exact (addCompletion s _).trans (ended _)

theorem completeSweep (s : State) {i : SlotId} (own : slotOwner i = p) : State.OffPort p s (s.completeSweep i) := by
  have counted : State.OffPort p s (s.updCounters i Counters.completeSweep) := updSlot s own _
  have due : ∀ t : State, State.OffPort p t (t.makeDue [i]) := fun t =>
    makeDue t fun j hj => List.mem_singleton.mp hj ▸ own
  unfold State.completeSweep
  split
  · dsimp only
    split
    · exact counted.trans (endPosting _ own _)
    · split
      · exact (counted.trans (updSlot _ own _)).trans (due _)
      · split
        · exact counted.trans (due _)
        · exact counted.trans (updSlot _ own _)
  · exact counted.trans (endPosting _ own _)
  all_goals exact refl s

theorem cutSweep (s : State) {i : SlotId} (own : slotOwner i = p) : State.OffPort p s (s.cutSweep i) := by
  unfold State.cutSweep
  split
  · exact endPosting s own _
  all_goals exact refl s

/-- The taking of the reports about the port's own sweeps (R88). -/
theorem takePortReports (s : State) (p : Port) : State.OffPort p s (s.takePortReports p) := by
  have taken : State.OffPort p s { s with seq := { s.seq with reports := s.seq.reports.filter fun i => !(slotOwner i == p) } } :=
    of_same rfl rfl ⟨_, _, rfl⟩
  refine taken.trans (foldl _ fun t i hi => completeSweep t ?_)
  simpa using (List.mem_filter.mp hi).2

theorem endPortPostings (s : State) (p : Port) : State.OffPort p s (s.endPortPostings p) :=
  foldl s fun t i hi => endPosting t ((mem_portSlots p i).mp hi) none

end State.OffPort

/-! ### An ending without a completion record (R17) -/

/-- A return of a reservation whose increase of room is not examined (R87). -/
theorem State.returnHeld_unexamined (s : State) (p : Port) (x : Slot) :
    s.returnHeld p x false = s.updPort p (PortState.giveBack x) := by
  unfold State.returnHeld
  split
  · next none => exact (State.updPort_id (PortState.giveBack_none none _)).symm
  · split
    · next q target =>
      refine s.updPort_congr p ?_
      unfold PortState.giveBack
      rw [target]
    · next elsewhere =>
      refine (State.updPort_id ?_).symm
      unfold PortState.giveBack
      split
      · next q target => exact absurd target (elsewhere q)
      · rfl

/-- `s` with the posting of slot `i` ended without a record, but for the return of its reservation. -/
def State.postingDropped (i : SlotId) (s : State) : State :=
  (((s.updSlot i Slot.ended).dropTimerRef (s.slot i).fields).pruneStamps).forgetCut i

section
variable {s : State} {i : SlotId}

theorem State.endPosting_none_idle (idle : (s.slot i).state = .idle) (o : Option EndOutcome) : s.endPosting i o = s := by
  unfold State.endPosting
  rw [if_pos idle]

theorem State.endPosting_none (active : (s.slot i).state ≠ .idle) :
    s.endPosting i none = (s.postingDropped i).updPort (slotOwner i) (PortState.giveBack (s.slot i)) := by
  unfold State.endPosting
  rw [if_neg active]
  exact State.returnHeld_unexamined _ _ _

theorem State.slot_endPosting_none (j : SlotId) : (s.endPosting i none).slot j =
    if j = i ∧ (s.slot j).state ≠ .idle then (s.slot j).ended else s.slot j := by
  by_cases idle : (s.slot i).state = .idle
  · rw [State.endPosting_none_idle idle, if_neg fun ⟨e, active⟩ => active (e ▸ idle)]
  · obtain ⟨ts, e⟩ := (s.updSlot i Slot.ended).dropTimerRef_eq (s.slot i).fields
    rw [State.endPosting_none idle, State.slot_updPort, State.postingDropped, State.slot_forgetCut, State.slot_pruneStamps, e]
    refine (State.slot_updSlot s i j Slot.ended).trans ?_
    exact ite_congr (propext ⟨fun at_i => ⟨at_i, at_i ▸ idle⟩, And.left⟩) (fun _ => rfl) fun _ => rfl

theorem State.port_endPosting_none : (s.endPosting i none).port (slotOwner i) =
    if (s.slot i).state = .idle then s.port (slotOwner i) else (s.port (slotOwner i)).giveBack (s.slot i) := by
  by_cases idle : (s.slot i).state = .idle
  · rw [State.endPosting_none_idle idle, if_pos idle]
  · obtain ⟨ts, e⟩ := (s.updSlot i Slot.ended).dropTimerRef_eq (s.slot i).fields
    rw [State.endPosting_none idle, State.port_updPort_self, if_neg idle, State.postingDropped, State.port_forgetCut,
      State.port_pruneStamps, e]
    rfl

/-- An ending prunes the stamp order, and does nothing else to the arbiter (R43). -/
theorem State.arbiter_endPosting_none (active : (s.slot i).state ≠ .idle) : (s.endPosting i none).arbiter =
    { s.arbiter with stampOrder := s.arbiter.stampOrder.filter (s.endPosting i none).stampInUse } := by
  obtain ⟨ts, e⟩ := (s.updSlot i Slot.ended).dropTimerRef_eq (s.slot i).fields
  rw [State.endPosting_none active, State.arbiter_updPort, State.postingDropped, e]
  rfl

end

/-! ### The endings of a CLOSE, one after another -/

/-- The slots: those of the list whose postings are not IDLE have ended. -/
theorem State.slot_endPostings {l : List SlotId} (distinct : l.Nodup) (s : State) (j : SlotId) :
    (l.foldl (fun s i => s.endPosting i none) s).slot j =
      if j ∈ l ∧ (s.slot j).state ≠ .idle then (s.slot j).ended else s.slot j := by
  induction l generalizing s with
  | nil => simp
  | cons i l ih =>
    obtain ⟨new, rest⟩ := List.nodup_cons.mp distinct
    rw [List.foldl_cons, ih rest, State.slot_endPosting_none]
    by_cases at_i : j = i
    · subst at_i
      simp [new]
    · simp [at_i]

/-- What the posting of slot `i` still holds in the queue with this code, if it has not ended. -/
def State.stillHeld (s : State) (code : Nat) (i : SlotId) : Nat :=
  if (s.slot i).state ≠ .idle ∧ (s.slot i).fields.target.toNat = code then (s.slot i).held else 0

/-- The port with places returned to its two queues. -/
def PortState.giveBoth (places0 places1 : Nat) (ps : PortState) : PortState :=
  { ps with ring0 := { ps.ring0 with reserved := ps.ring0.reserved - places0 }
            ring1 := { ps.ring1 with reserved := ps.ring1.reserved - places1 } }

theorem PortState.giveBoth_giveBoth (a b c d : Nat) (ps : PortState) :
    (ps.giveBoth a b).giveBoth c d = ps.giveBoth (a + c) (b + d) := by
  simp [PortState.giveBoth, Nat.sub_sub]

/-- One ending returns what its posting still held. -/
theorem State.port_endPosting_giveBoth (s : State) (i : SlotId) : (s.endPosting i none).port (slotOwner i) =
    (s.port (slotOwner i)).giveBoth (s.stillHeld 1 i) (s.stillHeld 2 i) := by
  rw [State.port_endPosting_none, PortState.giveBack_eq]
  unfold State.stillHeld
  by_cases idle : (s.slot i).state = .idle
  · simp [idle, PortState.giveBoth]
  · by_cases first : (s.slot i).fields.target.toNat = 1
    · simp [idle, first, PortState.giveBoth]
    · by_cases second : (s.slot i).fields.target.toNat = 2
      · simp [idle, second, PortState.giveBoth]
      · simp [idle, first, second, PortState.giveBoth]

/-- The port: each of its queues has its postings' places back. -/
theorem State.port_endPostings {p : Port} {l : List SlotId} (distinct : l.Nodup) (own : ∀ i ∈ l, slotOwner i = p) (s : State) :
    (l.foldl (fun s i => s.endPosting i none) s).port p =
      (s.port p).giveBoth (l.map (s.stillHeld 1)).sum (l.map (s.stillHeld 2)).sum := by
  induction l generalizing s with
  | nil => simp [PortState.giveBoth]
  | cons i l ih =>
    obtain ⟨new, rest⟩ := List.nodup_cons.mp distinct
    have later : ∀ code, l.map ((s.endPosting i none).stillHeld code) = l.map (s.stillHeld code) := fun code => by
      refine List.map_congr_left fun j hj => ?_
      have other : j ≠ i := fun e => new (e ▸ hj)
      have same : (s.endPosting i none).slot j = s.slot j := by
        rw [State.slot_endPosting_none, if_neg fun h => other h.1]
      unfold State.stillHeld
      rw [same]
    have here := s.port_endPosting_giveBoth i
    rw [own i List.mem_cons_self] at here
    rw [List.foldl_cons, ih rest fun j hj => own j (List.mem_cons_of_mem i hj), later, later, here,
      PortState.giveBoth_giveBoth, List.map_cons, List.map_cons, List.sum_cons, List.sum_cons]

/-! ### Stamps -/

/-- The request holds the stamp (R41). -/
def Slot.HoldsStampOf (w : Word) (x : Slot) : Prop := (x.state = .due ∨ x.state = .stalled) ∧ x.dueStamp = w

theorem State.stampInUse_iff_holds (s : State) (w : Word) : s.stampInUse w = true ↔ ∃ j, (s.slot j).HoldsStampOf w :=
  s.stampInUse_iff w

/-- From `s` to `t` no stamp is issued, and each stamp that a request of `kept` holds stays, and stays held by it. -/
structure State.StampsLeft (kept : SlotId → Prop) (s t : State) : Prop where
  counter : t.arbiter.stampCounter = s.arbiter.stampCounter
  order : t.arbiter.stampOrder.Sublist s.arbiter.stampOrder
  held : ∀ w j, kept j → (s.slot j).HoldsStampOf w →
    (t.slot j).HoldsStampOf w ∧ (w ∈ s.arbiter.stampOrder → w ∈ t.arbiter.stampOrder)

namespace State.StampsLeft
variable {kept : SlotId → Prop} {s t u : State}

theorem of_same (arbiter : t.arbiter = s.arbiter)
    (slots : ∀ w j, kept j → (s.slot j).HoldsStampOf w → (t.slot j).HoldsStampOf w) : State.StampsLeft kept s t where
  counter := congrArg _ arbiter
  order := arbiter ▸ List.Sublist.refl _
  held w j hj holds := ⟨slots w j hj holds, fun mem => arbiter ▸ mem⟩

theorem refl (s : State) : State.StampsLeft kept s s := of_same rfl fun _ _ _ => id

theorem trans (h : State.StampsLeft kept s t) (k : State.StampsLeft kept t u) : State.StampsLeft kept s u where
  counter := k.counter.trans h.counter
  order := k.order.trans h.order
  held w j hj holds := by
    obtain ⟨holds_t, mem_t⟩ := h.held w j hj holds
    obtain ⟨holds_u, mem_u⟩ := k.held w j hj holds_t
    exact ⟨holds_u, fun mem => mem_u (mem_t mem)⟩

/-- A pruning of the stamp order to the stamps in use. -/
theorem of_pruned (order : t.arbiter = { s.arbiter with stampOrder := s.arbiter.stampOrder.filter t.stampInUse })
    (slots : ∀ w j, kept j → (s.slot j).HoldsStampOf w → (t.slot j).HoldsStampOf w) : State.StampsLeft kept s t where
  counter := by rw [order]
  order := by
    rw [order]
    exact List.filter_sublist
  held w j hj holds := by
    have holds_t := slots w j hj holds
    refine ⟨holds_t, fun mem => ?_⟩
    rw [order]
    exact List.mem_filter.mpr ⟨mem, (t.stampInUse_iff_holds w).mpr ⟨j, holds_t⟩⟩

/-- An ending of a request that is not `kept` (R17, R43). -/
theorem endPosting_none (s : State) {i : SlotId} (gone : ¬kept i) : State.StampsLeft kept s (s.endPosting i none) := by
  by_cases idle : (s.slot i).state = .idle
  · rw [State.endPosting_none_idle idle]
    exact refl s
  · refine of_pruned (State.arbiter_endPosting_none idle) fun w j hj holds => ?_
    have other : j ≠ i := fun e => gone (e ▸ hj)
    rw [State.slot_endPosting_none, if_neg fun h => other h.1]
    exact holds

/-- The ending of a cut sweep, whose request holds no stamp (R81): a request that returns from STALLED keeps its own. -/
theorem cutSweep (s : State) (i : SlotId) : State.StampsLeft kept s (s.cutSweep i) := by
  unfold State.cutSweep
  split
  · next d draining =>
    have active : (s.slot i).state ≠ .idle := by simp [draining]
    have inUse : (s.postingEnded i d.cutOutcome).stampInUse = (s.endPosting i (some d.cutOutcome)).stampInUse := funext fun w =>
      Bool.eq_iff_iff.mpr ((State.stampInUse_postingEnded active _ w).trans (State.stampInUse_iff _ w).symm)
    refine of_pruned (inUse ▸ State.arbiter_endPosting active _) fun w j _ holds => ?_
    have other : j ≠ i := by
      rintro rfl
      obtain ⟨due | stalled, -⟩ := holds
      · exact nomatch draining.symm.trans due
      · exact nomatch draining.symm.trans stalled
    obtain ⟨returns, stays⟩ := State.slot_endPosting_ne active d.cutOutcome other
    by_cases fits : ∃ q, s.FitsAfter i d.cutOutcome j q
    · rw [returns fits]
      exact ⟨.inl rfl, holds.2⟩
    · rw [stays fits]
      exact holds
  all_goals exact refl s

theorem handReport (s : State) (r : Option Report) : State.StampsLeft kept s (s.handReport r) := by
  unfold State.handReport
  split
  · exact refl s
  · split
    · exact of_same rfl fun _ _ _ => id
    · exact cutSweep s _

theorem endPortPostings (s : State) (p : Port) : State.StampsLeft (fun j => slotOwner j ≠ p) s (s.endPortPostings p) :=
  List.foldlRecOn (motive := fun t : State => State.StampsLeft (fun j => slotOwner j ≠ p) s t) (portSlots p) _ (refl s)
    fun t ht i hi => ht.trans (endPosting_none t fun other => other ((mem_portSlots p i).mp hi))

end State.StampsLeft

/-- A stamp that only requests of the list hold leaves the order when their postings have ended (R43). -/
theorem State.stamp_leaves {w : Word} {l : List SlotId} (distinct : l.Nodup) (s : State)
    (held : ∃ j, (s.slot j).HoldsStampOf w) (only : ∀ j, (s.slot j).HoldsStampOf w → j ∈ l) :
    w ∉ (l.foldl (fun s i => s.endPosting i none) s).arbiter.stampOrder := by
  induction l generalizing s with
  | nil =>
    obtain ⟨j, holds⟩ := held
    exact absurd (only j holds) List.not_mem_nil
  | cons i l ih =>
    obtain ⟨new, rest⟩ := List.nodup_cons.mp distinct
    have holders : ∀ j, ((s.endPosting i none).slot j).HoldsStampOf w ↔ j ≠ i ∧ (s.slot j).HoldsStampOf w := fun j => by
      rw [State.slot_endPosting_none]
      by_cases at_i : j = i
      · subst at_i
        by_cases idle : (s.slot j).state = .idle
        · simp [idle, Slot.HoldsStampOf]
        · simp [idle, Slot.HoldsStampOf, Slot.ended]
      · simp [at_i]
    have only_rest : ∀ j, ((s.endPosting i none).slot j).HoldsStampOf w → j ∈ l := fun j holds => by
      obtain ⟨other, holds⟩ := (holders j).mp holds
      exact (List.mem_cons.mp (only j holds)).resolve_left other
    rw [List.foldl_cons]
    by_cases later : ∃ j, ((s.endPosting i none).slot j).HoldsStampOf w
    · exact ih rest _ later only_rest
    · obtain ⟨j, holds⟩ := held
      have at_i : j = i := Classical.byContradiction fun other => later ⟨j, (holders j).mpr ⟨other, holds⟩⟩
      have active : (s.slot i).state ≠ .idle := by
        obtain ⟨due | stalled, -⟩ := at_i ▸ holds
        · simp [due]
        · simp [stalled]
      have pruned : w ∉ (s.endPosting i none).arbiter.stampOrder := by
        rw [State.arbiter_endPosting_none active]
        exact fun mem => later ((State.stampInUse_iff_holds _ w).mp (List.mem_filter.mp mem).2)
      have shrinks : State.StampsLeft (fun j => j ∉ l) (s.endPosting i none)
          (l.foldl (fun s i => s.endPosting i none) (s.endPosting i none)) :=
        List.foldlRecOn (motive := fun t : State => State.StampsLeft (fun j => j ∉ l) (s.endPosting i none) t) l _ (.refl _)
          fun t ht k hk => ht.trans (.endPosting_none t (not_not_intro hk))
      exact fun mem => pruned (shrinks.order.subset mem)

end Sys2Proof.Machine
end

section
/-! SUPPORT. The FLUSH that a CLOSE starts (R63, R68): its readout, told from two states that differ in the closing port's part
alone, and what it leaves of that part. -/
namespace Sys2Proof.Machine

/-! ### States that differ in one port's part -/

/-- `t` is `s` but for the slots of port `p` and the ports outside `P`, which keep their modes at least; what the sequencer,
the timers and the arbiter hold is left aside. -/
structure State.Alike (p : Port) (P : Port → Prop) (s t : State) : Prop where
  now : t.now = s.now
  cal : t.cal = s.cal
  mode : ∀ q, (t.port q).mode = (s.port q).mode
  port : ∀ q, P q → t.port q = s.port q
  slot : ∀ i, slotOwner i ≠ p → t.slot i = s.slot i

namespace State.Alike
variable {p : Port} {P : Port → Prop} {s t : State}

/-- The parts of the relation may be read off states with the same parts. -/
theorem of_same (h : State.Alike p P s t) {s' t' : State} (now : s'.now = s.now) (cal : s'.cal = s.cal)
    (ports : s'.ports = s.ports) (slots : s'.slots = s.slots) (now' : t'.now = t.now) (cal' : t'.cal = t.cal)
    (ports' : t'.ports = t.ports) (slots' : t'.slots = t.slots) : State.Alike p P s' t' := by
  have port : ∀ q, s'.port q = s.port q := fun q => congrArg (Ports.port · q) ports
  have port' : ∀ q, t'.port q = t.port q := fun q => congrArg (Ports.port · q) ports'
  have slot : ∀ i, s'.slot i = s.slot i := fun i => congrArg (tget · i) slots
  have slot' : ∀ i, t'.slot i = t.slot i := fun i => congrArg (tget · i) slots'
  exact ⟨by rw [now, now', h.now], by rw [cal, cal', h.cal], fun q => by rw [port, port', h.mode],
    fun q hq => by rw [port, port', h.port q hq], fun i hi => by rw [slot, slot', h.slot i hi]⟩

theorem updSeq (h : State.Alike p P s t) (f g : Sequencer → Sequencer) : State.Alike p P (s.updSeq f) (t.updSeq g) :=
  h.of_same rfl rfl rfl rfl rfl rfl rfl rfl

/-- Updates of one port that make the same of it where it is the same, and keep its mode at least where it is not. -/
theorem updPort (h : State.Alike p P s t) (q : Port) {f g : PortState → PortState}
    (mode : (g (t.port q)).mode = (f (s.port q)).mode) (same : P q → g (t.port q) = f (s.port q)) :
    State.Alike p P (s.updPort q f) (t.updPort q g) := by
  refine ⟨h.now, h.cal, fun r => ?_, fun r hr => ?_, h.slot⟩
  · rw [State.port_updPort, State.port_updPort]
    split
    · next e => exact e ▸ mode
    · exact h.mode r
  · rw [State.port_updPort, State.port_updPort]
    split
    · next e => exact e ▸ same (e ▸ hr)
    · exact h.port r hr

theorem updPort_same (h : State.Alike p P s t) {q : Port} (hq : P q) (f : PortState → PortState) :
    State.Alike p P (s.updPort q f) (t.updPort q f) :=
  have same : f (t.port q) = f (s.port q) := by rw [h.port q hq]
  h.updPort q (congrArg _ same) fun _ => same

theorem updSlot (h : State.Alike p P s t) (i : SlotId) (f : Slot → Slot) :
    State.Alike p P (s.updSlot i f) (t.updSlot i f) := by
  refine ⟨h.now, h.cal, h.mode, h.port, fun j other => ?_⟩
  rw [State.slot_updSlot, State.slot_updSlot, h.slot j other]

/-! ### Delivery -/

/-- The copies of a sample of another port's posting are computed alike (R94, R122). -/
theorem copyRecord (h : State.Alike p P s t) {x : Sample} (other : slotOwner x.slot ≠ p) (q : Port) (shared : Bool) :
    t.copyRecord q shared x = s.copyRecord q shared x := by
  have entry : t.calEntry x.channel = s.calEntry x.channel := by
    unfold State.calEntry
    rw [h.cal]
  unfold State.copyRecord State.copyValue
  rw [h.slot x.slot other, h.cal, entry]

theorem deliverOwn (h : State.Alike p P s t) {x : Sample} (other : slotOwner x.slot ≠ p) (owner : P (slotOwner x.slot))
    (rec : SampleRecord) : State.Alike p P (s.deliverOwn x rec) (t.deliverOwn x rec) := by
  unfold State.deliverOwn
  dsimp only
  rw [h.port _ owner, h.slot _ other]
  split
  · exact h
  · exact ((h.updPort_same owner _).updSlot x.slot _).updSlot x.slot _

/-- A shared sample is offered alike, but to a port that is not the same it may be offered or not (R123). -/
theorem deliver (h : State.Alike p P s t) {x : Sample} (other : slotOwner x.slot ≠ p) (owner : P (slotOwner x.slot))
    {c d : Option Port} (closing : ∀ q, P q → (c = some q ↔ d = some q)) :
    State.Alike p P (s.deliver c x) (t.deliver d x) := by
  have own : State.Alike p P ((s.produced x).deliverOwn x (s.copyRecord (slotOwner x.slot) false x))
      ((t.produced x).deliverOwn x (t.copyRecord (slotOwner x.slot) false x)) := by
    rw [h.copyRecord other]
    exact (h.updSlot x.slot _).deliverOwn other owner _
  have offered : ∀ q, P q → t.offeredTo (slotOwner x.slot) d q = s.offeredTo (slotOwner x.slot) c q := fun q hq => by
    have same : (d != some q) = (c != some q) := by
      rw [Bool.eq_iff_iff, bne_iff_ne, bne_iff_ne, ne_eq, ne_eq, closing q hq]
    unfold State.offeredTo
    rw [h.mode, same]
  have as_update : ∀ (u : State) (chosen : Bool) (q : Port) (f : PortState → PortState),
      (if chosen then u.updPort q f else u) = u.updPort q fun ps => if chosen then f ps else ps := fun u chosen q f => by
    cases chosen
    · exact (State.updPort_id rfl).symm
    · rfl
  have kept : ∀ (chosen : Bool) (rec : SampleRecord) (ps : PortState),
      (if chosen then ps.offer rec else ps).mode = ps.mode := fun chosen rec ps => by
    cases chosen
    · rfl
    · exact (ps.setupKept_carryOut _ rec).mode
  have offers : ∀ (l : List Port) (s' t' : State), State.Alike p P s' t' → State.Alike p P
      (l.foldl (fun u q => if s.offeredTo (slotOwner x.slot) c q then
        u.updPort q (PortState.offer (s.copyRecord q true x)) else u) s')
      (l.foldl (fun u q => if t.offeredTo (slotOwner x.slot) d q then
        u.updPort q (PortState.offer (t.copyRecord q true x)) else u) t') := by
    intro l
    induction l with
    | nil => exact fun _ _ => id
    | cons q l ih =>
      intro s' t' h'
      refine ih _ _ ?_
      dsimp only
      rw [as_update, as_update]
      refine h'.updPort q ?_ fun hq => ?_
      · rw [kept, kept, h'.mode]
      · rw [offered q hq, h.copyRecord other, h'.port q hq]
  unfold State.deliver
  dsimp only
  rw [h.slot x.slot other]
  split
  · exact offers _ _ _ own
  · exact own

/-- The readout of another port's record, from an accumulator and a converter buffer that are the same (R65-R67). -/
theorem readout (h : State.Alike p P s t) {r : SweepRecord} {start : DWord} (buffer : s.seq.buffer = some ⟨.sweep r, start⟩)
    (buffer' : t.seq.buffer = some ⟨.sweep r, start⟩) (code : t.seq.converterCode = s.seq.converterCode)
    (accumulator : t.seq.accumulator = s.seq.accumulator) (other : slotOwner r.slot ≠ p) (owner : P (slotOwner r.slot))
    {c d : Option Port} (closing : ∀ q, P q → (c = some q ↔ d = some q)) :
    State.Alike p P (s.readout c).1 (t.readout d).1 ∧ (t.readout d).2 = (s.readout c).2 := by
  unfold State.readout
  rw [buffer, buffer']
  dsimp only
  unfold State.readSweep
  rw [State.seq_updSeq, State.seq_updSeq, State.slot_updSeq, State.slot_updSeq, code, accumulator, h.slot _ other]
  cases accumulate r start s.seq.converterCode s.seq.accumulator with
  | none =>
    dsimp only
    exact ⟨h.updSeq _ _, rfl⟩
  | some a =>
    dsimp only
    split
    · exact ⟨((h.updSeq _ _).updSeq _ _).deliver other owner closing, rfl⟩
    · dsimp only
      exact ⟨(h.updSeq _ _).updSeq _ _, rfl⟩

/-! ### The ending of a cut sweep -/

theorem returnStalled (h : State.Alike p P s t) {q : Port} (other : q ≠ p) (hq : P q) (k : QueueId) :
    State.Alike p P (s.returnStalled q k) (t.returnStalled q k) := by
  have returns : ∀ (room : Nat) (l : List SlotId), (∀ i ∈ l, slotOwner i = q) → ∀ s' t' : State, State.Alike p P s' t' →
      State.Alike p P
        (l.foldl (fun s i => if (s.slot i).returnsFrom k room then s.updSlot i fun x => { x with state := .due } else s) s')
        (l.foldl (fun s i => if (s.slot i).returnsFrom k room then s.updSlot i fun x => { x with state := .due } else s) t') := by
    intro room l
    induction l with
    | nil => exact fun _ _ _ => id
    | cons i l ih =>
      intro own s' t' h'
      refine ih (fun j hj => own j (List.mem_cons_of_mem i hj)) _ _ ?_
      dsimp only
      rw [h'.slot i fun e => other ((own i List.mem_cons_self).symm.trans e)]
      split
      · exact h'.updSlot i _
      · exact h'
  unfold State.returnStalled
  rw [h.port q hq]
  exact returns _ _ (fun i => (mem_portSlots q i).mp) _ _ h

theorem returnHeld (h : State.Alike p P s t) {q : Port} (other : q ≠ p) (hq : P q) (x : Slot) (examine : Bool) :
    State.Alike p P (s.returnHeld q x examine) (t.returnHeld q x examine) := by
  unfold State.returnHeld
  split
  · exact h
  · split
    · dsimp only
      split
      · exact (h.updPort_same hq _).returnStalled other hq _
      · exact h.updPort_same hq _
    · exact h

theorem endPosting (h : State.Alike p P s t) {i : SlotId} (other : slotOwner i ≠ p) (owner : P (slotOwner i))
    (o : EndOutcome) : State.Alike p P (s.endPosting i (some o)) (t.endPosting i (some o)) := by
  have record : t.completionRecord i o = s.completionRecord i o := by
    unfold State.completionRecord State.timestamp
    rw [h.slot i other, h.now]
  unfold State.endPosting
  rw [h.slot i other]
  dsimp only
  rw [record]
  split
  · exact h
  · refine returnHeld ?_ other owner _ _
    have ended := (h.updPort_same owner (PortState.addCompletion (s.completionRecord i o))).updSlot i Slot.ended
    obtain ⟨ts, e⟩ := ((s.updPort (slotOwner i) (PortState.addCompletion (s.completionRecord i o))).updSlot i
      Slot.ended).dropTimerRef_eq (s.slot i).fields
    obtain ⟨ts', e'⟩ := ((t.updPort (slotOwner i) (PortState.addCompletion (s.completionRecord i o))).updSlot i
      Slot.ended).dropTimerRef_eq (s.slot i).fields
    rw [e, e']
    exact ended.of_same rfl rfl rfl rfl rfl rfl rfl rfl

theorem handReport (h : State.Alike p P s t) {r : Option Report} (reported : ∀ x, r = some x → slotOwner x.slot ≠ p ∧ P (slotOwner x.slot)) :
    State.Alike p P (s.handReport r) (t.handReport r) := by
  unfold State.handReport
  split
  · exact h
  · next x =>
    obtain ⟨other, owner⟩ := reported x rfl
    split
    · exact h.of_same rfl rfl rfl rfl rfl rfl rfl rfl
    · unfold State.cutSweep
      rw [h.slot _ other]
      split
      · exact h.endPosting other owner _
      all_goals exact h

end State.Alike

/-! ### What the readout of another port's record does to a port -/

/-- The readout of a sweep's record: it is accumulated, or its entry's sample is delivered (R65-R67). -/
theorem State.readout_cases {s : State} {r : SweepRecord} {start : DWord} (buffer : s.seq.buffer = some ⟨.sweep r, start⟩)
    (c : Option Port) : (∃ f, s.readout c = (s.updSeq f, none)) ∨
      ∃ f x, x.slot = r.slot ∧ s.readout c = ((s.updSeq f).deliver c x, (s.slot r.slot).reportAfter r) := by
  unfold State.readout
  rw [buffer]
  dsimp only
  unfold State.readSweep
  split
  · exact .inl ⟨_, rfl⟩
  · next a _ =>
    split
    · exact .inr ⟨fun q => { q with buffer := none, accumulator := none }, finishedSample r a, rfl, rfl⟩
    · exact .inl ⟨fun q => { q with buffer := none, accumulator := some a }, rfl⟩

/-- A report is about the slot whose record was read out. -/
theorem Slot.slot_reportAfter {x : Slot} {r : SweepRecord} {report : Report} (made : x.reportAfter r = some report) :
    report.slot = r.slot := by
  unfold Slot.reportAfter at made
  split at made
  · exact congrArg Report.slot (Option.some.inj made).symm
  · split at made
    · exact congrArg Report.slot (Option.some.inj made).symm
    · cases made

theorem State.slot_report {s : State} {r : SweepRecord} {start : DWord} (buffer : s.seq.buffer = some ⟨.sweep r, start⟩)
    {c : Option Port} {report : Report} (made : (s.readout c).2 = some report) : report.slot = r.slot := by
  obtain ⟨f, e⟩ | ⟨f, x, -, e⟩ := State.readout_cases buffer c
  · rw [e] at made
    cases made
  · rw [e] at made
    exact Slot.slot_reportAfter made

/-- A delivery touches one slot alone, and of it neither the state nor the due stamp; it leaves the arbiter. -/
structure State.DeliveredTo (i : SlotId) (s t : State) : Prop where
  slot_ne : ∀ j, j ≠ i → t.slot j = s.slot j
  state : (t.slot i).state = (s.slot i).state
  dueStamp : (t.slot i).dueStamp = (s.slot i).dueStamp
  arbiter : t.arbiter = s.arbiter

namespace State.DeliveredTo
variable {i : SlotId} {s t u : State}

theorem of_same (slots : t.slots = s.slots) (arbiter : t.arbiter = s.arbiter) : State.DeliveredTo i s t := by
  have slot : ∀ j, t.slot j = s.slot j := fun j => congrArg (tget · j) slots
  exact ⟨fun j _ => slot j, congrArg _ (slot i), congrArg _ (slot i), arbiter⟩

theorem trans (h : State.DeliveredTo i s t) (k : State.DeliveredTo i t u) : State.DeliveredTo i s u :=
  ⟨fun j other => (k.slot_ne j other).trans (h.slot_ne j other), k.state.trans h.state, k.dueStamp.trans h.dueStamp,
    k.arbiter.trans h.arbiter⟩

theorem updSlot (s : State) (i : SlotId) {f : Slot → Slot} (state : (f (s.slot i)).state = (s.slot i).state)
    (dueStamp : (f (s.slot i)).dueStamp = (s.slot i).dueStamp) : State.DeliveredTo i s (s.updSlot i f) :=
  ⟨fun _ other => s.slot_updSlot_ne f other, by rw [State.slot_updSlot_self, state],
    by rw [State.slot_updSlot_self, dueStamp], rfl⟩

theorem deliver (s : State) (c : Option Port) (x : Sample) : State.DeliveredTo x.slot s (s.deliver c x) := by
  have consumed : ∀ (b : Bool) (y : Slot), (y.consumePlace b).state = y.state ∧ (y.consumePlace b).dueStamp = y.dueStamp :=
    fun b y => by
      unfold Slot.consumePlace
      split <;> exact ⟨rfl, rfl⟩
  have own : ∀ (t : State) (rec : SampleRecord), State.DeliveredTo x.slot t (t.deliverOwn x rec) := fun t rec => by
    unfold State.deliverOwn
    dsimp only
    split
    · exact of_same rfl rfl
    · next ps b _ =>
      have counted := updSlot (t.updPort (slotOwner x.slot) fun _ => ps) x.slot
        (f := fun y => { y with counters := y.counters.countDelivery b }) rfl rfl
      have stored : State.DeliveredTo x.slot t (t.updPort (slotOwner x.slot) fun _ => ps) := of_same rfl rfl
      exact (stored.trans counted).trans (updSlot _ x.slot (consumed b _).1 (consumed b _).2)
  have taken := (updSlot s x.slot (f := fun y => { y with
    counters := { y.counters with entriesProduced := y.counters.entriesProduced + 1 } }) rfl rfl).trans
    (own _ (s.copyRecord (slotOwner x.slot) false x))
  unfold State.deliver
  dsimp only
  split
  · refine List.foldlRecOn (motive := fun t : State => State.DeliveredTo x.slot s t) _ _ taken fun t ht q _ => ?_
    split
    · exact ht.trans (of_same rfl rfl)
    · exact ht
  · exact taken

theorem readout {s : State} {r : SweepRecord} {start : DWord} (buffer : s.seq.buffer = some ⟨.sweep r, start⟩)
    (c : Option Port) : State.DeliveredTo r.slot s (s.readout c).1 := by
  obtain ⟨f, e⟩ | ⟨f, x, slot, e⟩ := State.readout_cases buffer c
  · rw [e]
    exact of_same rfl rfl
  · have taken : State.DeliveredTo x.slot s (s.updSeq f) := of_same rfl rfl
    rw [e, ← slot]
    exact taken.trans (deliver _ c x)

/-- Every stamp stays held. -/
theorem stampsLeft (h : State.DeliveredTo i s t) (kept : SlotId → Prop) : State.StampsLeft kept s t := by
  refine .of_same h.arbiter fun w j _ holds => ?_
  by_cases at_i : j = i
  · subst at_i
    exact ⟨h.state.symm ▸ holds.1, h.dueStamp.trans holds.2⟩
  · rw [h.slot_ne j at_i]
    exact holds

end State.DeliveredTo

/-- A delivery offers a shared sample to the other ports that are OPEN and not closing (R123). -/
theorem State.port_deliver_other (s : State) (c : Option Port) (x : Sample) {q : Port} (other : q ≠ slotOwner x.slot) :
    (s.deliver c x).port q = if (s.slot x.slot).fields.share = true ∧ s.offeredTo (slotOwner x.slot) c q = true then
      (s.port q).offer (s.copyRecord q true x) else s.port q := by
  obtain ⟨-, ports⟩ := State.foldl_updPort_if (s.offeredTo (slotOwner x.slot) c)
    (fun q => PortState.offer (s.copyRecord q true x)) nodup_allPorts (s.ownTaken x)
  have own := s.port_ownTaken_other x other
  unfold State.deliver
  dsimp only
  split
  · next share =>
    refine (ports q).trans ?_
    rw [own]
    exact ite_congr (propext ⟨fun h => ⟨share, h.2⟩, fun h => ⟨mem_allPorts q, h.2⟩⟩) (fun _ => rfl) fun _ => rfl
  · next alone => rw [if_neg fun h => alone h.1]; exact own

/-- A port that closes in the same taking, and is not offered the sample, stays as it is. -/
theorem State.port_readout_closing {s : State} {r : SweepRecord} {start : DWord}
    (buffer : s.seq.buffer = some ⟨.sweep r, start⟩) {p : Port} (other : slotOwner r.slot ≠ p) :
    (s.readout (some p)).1.port p = s.port p := by
  obtain ⟨f, e⟩ | ⟨f, x, slot, e⟩ := State.readout_cases buffer (some p)
  · rw [e]
    rfl
  · rw [e, State.port_deliver_other _ _ x (fun at_p => other (slot ▸ at_p.symm)), if_neg]
    · rfl
    · simp [State.offeredTo]

/-- An action leaves the timeout counter of a port whose counter has no queue as its source (R138). -/
theorem PortState.timeout_offer {ps : PortState} (source : ∀ q, ps.config.timeoutSource.toNat ≠ queueCode q)
    (rec : SampleRecord) : (ps.offer rec).timeout = ps.timeout := by
  have appended : ∀ q rec', (ps.append q false rec').timeout = ps.timeout := fun q rec' => by
    rw [PortState.timeout_append, if_neg fun h => source q h.2.1]
  have stored : ∀ q rec', (ps.storeUnreserved q rec').1.timeout = ps.timeout := fun q rec' => by
    unfold PortState.storeUnreserved
    split
    · rfl
    · split
      · split
        · exact appended q rec'
        · rw [PortState.overwriteOldest_eq]
          exact ps.timeout_updRing q _
      · split
        · exact appended q rec'
        · rfl
  unfold PortState.offer
  cases ps.decidingAction rec with
  | reject => rfl
  | store q => exact stored q rec
  | storeUrgent =>
    unfold PortState.carryOut
    dsimp only
    split
    · exact stored .q0 _
    · exact stored .q0 _
  | watch => rfl
  | storeSlot n =>
    unfold PortState.carryOut PortState.storeSlot
    dsimp only
    split <;> rfl

theorem State.timeout_readout {s : State} {r : SweepRecord} {start : DWord}
    (buffer : s.seq.buffer = some ⟨.sweep r, start⟩) {p : Port} (other : slotOwner r.slot ≠ p)
    (source : ∀ q, (s.port p).config.timeoutSource.toNat ≠ queueCode q) (c : Option Port) :
    ((s.readout c).1.port p).timeout = (s.port p).timeout := by
  obtain ⟨f, e⟩ | ⟨f, x, slot, e⟩ := State.readout_cases buffer c
  · rw [e]
    rfl
  · rw [e, State.port_deliver_other _ _ x (fun at_p => other (slot ▸ at_p.symm))]
    split
    · exact PortState.timeout_offer source _
    · rfl

/-- What the sequencer's report does, it does to the part of the reported slot's port. -/
theorem State.OffPort.handReport (s : State) {r : Option Report} {q : Port}
    (reported : ∀ x, r = some x → slotOwner x.slot = q) : State.OffPort q s (s.handReport r) := by
  unfold State.handReport
  split
  · exact .refl s
  · next x =>
    split
    · exact .of_same rfl rfl ⟨_, _, rfl⟩
    · exact .cutSweep s (reported x rfl)

end Sys2Proof.Machine
end

section
/-! SUPPORT. CLOSE of an OPEN port (R148): what its parts together make of the port, its slots, the other ports and the stamps. -/
namespace Sys2Proof.Machine

/-! ### The pipeline at a CLOSE (R68) -/

/-- The selected record is one of the port exactly if its CLOSE removes it. -/
theorem State.selectedOf_iff (s : State) (p : Port) :
    (s.seq.selected.any fun r => slotOwner r.slot == p) = true ↔ s.SelectedOf p := by
  simp [State.SelectedOf, Option.any_eq_true]

/-- A started record that is a sweep's after the retagging was that sweep's record before, and is not the port's. -/
theorem staleIfOwned_sweep_iff (p : Port) (b : Option StartedRecord) (r : SweepRecord) (start : DWord) :
    staleIfOwned p b = some ⟨.sweep r, start⟩ ↔ b = some ⟨.sweep r, start⟩ ∧ slotOwner r.slot ≠ p := by
  obtain _ | ⟨tag, time⟩ := b
  · simp [staleIfOwned]
  · cases tag with
    | sweep x =>
      by_cases own : slotOwner x.slot = p
      · simp only [staleIfOwned, RecordTag.sweepRecord?, Option.map_some, own, if_true, Option.some.injEq,
          StartedRecord.mk.injEq, reduceCtorEq, false_and, RecordTag.sweep.injEq, false_iff, not_and, Classical.not_not]
        rintro ⟨rfl, rfl⟩
        exact own
      · simp only [staleIfOwned, RecordTag.sweepRecord?, Option.map_some, own, if_false, Option.some.injEq,
          StartedRecord.mk.injEq, RecordTag.sweep.injEq, iff_self_and]
        rintro ⟨rfl, rfl⟩
        exact own
    | flush _ => simp [staleIfOwned, RecordTag.sweepRecord?]
    | dummy _ => simp [staleIfOwned, RecordTag.sweepRecord?]
    | stale => simp [staleIfOwned, RecordTag.sweepRecord?]

theorem staleIfOwned_eq_none_iff (p : Port) (b : Option StartedRecord) : staleIfOwned p b = none ↔ b = none := by
  simp [staleIfOwned]

section
variable {s : State} {p : Port}

/-- The removal of the port's selected record leaves none. -/
theorem Sequencer.selected_retag (selected : s.SelectedOf p) : (s.seq.retag p).selected = none := by
  obtain ⟨r, isSelected, own⟩ := selected
  simp [Sequencer.retag, isSelected, own]

/-- A CLOSE that starts no FLUSH touches the sequencer alone in the pipeline (and uses a free value). -/
theorem State.leavePipeline_noFlush (noFlush : s.ClosesWithoutFlush p) :
    ∃ q k, s.leavePipeline p = { s with seq := q, freeCount := k } := by
  unfold State.leavePipeline
  dsimp only
  by_cases removed : s.SelectedOf p
  · rw [if_pos ((s.selectedOf_iff p).mpr removed)]
    by_cases resting : s.seq.converting = none
    · have noSweep : ¬∃ r start, (s.updSeq (Sequencer.retag p)).seq.buffer = some ⟨.sweep r, start⟩ := by
        rintro ⟨r, start, buffer⟩
        obtain ⟨was, other⟩ := (staleIfOwned_sweep_iff p _ r start).mp buffer
        obtain kept | converts | own := noFlush
        · exact kept removed
        · exact converts resting
        · exact other (own r start was)
      rw [State.afterRemoval_idle _ (Sequencer.selected_retag removed) ((staleIfOwned_eq_none_iff p _).mpr resting) noSweep]
      exact ⟨_, _, rfl⟩
    · rw [State.afterRemoval_converting _ fun gone => resting ((staleIfOwned_eq_none_iff p _).mp gone)]
      exact ⟨_, _, rfl⟩
  · rw [if_neg fun any => removed ((s.selectedOf_iff p).mp any)]
    exact ⟨_, _, rfl⟩

/-- A CLOSE that starts a FLUSH flushes out another port's sweep record (R63). -/
theorem State.leavePipeline_flush (flushes : ¬s.ClosesWithoutFlush p) :
    ∃ r start c, s.seq.buffer = some ⟨.sweep r, start⟩ ∧ slotOwner r.slot ≠ p ∧ (c = none ∨ c = some p) ∧
      s.leavePipeline p = ((s.updSeq (Sequencer.retag p)).flushStarted c).countFree := by
  simp only [State.ClosesWithoutFlush, not_or, Classical.not_not, Classical.not_forall] at flushes
  obtain ⟨removed, resting, r, start, buffer, other⟩ := flushes
  refine ⟨r, start, if Config.orderBit s.freeCount then some p else none, buffer, other, ?_, ?_⟩
  · split
    · exact .inr rfl
    · exact .inl rfl
  · unfold State.leavePipeline
    dsimp only
    rw [if_pos ((s.selectedOf_iff p).mpr removed), State.afterRemoval_flush _ (Sequencer.selected_retag removed)
      ((staleIfOwned_eq_none_iff p _).mpr resting) ⟨r, start, (staleIfOwned_sweep_iff p _ r start).mpr ⟨buffer, other⟩⟩]
    rfl

end

/-! ### A FLUSH of another port's record -/

section
variable {s : State} {r : SweepRecord} {start : DWord} (buffer : s.seq.buffer = some ⟨.sweep r, start⟩) (c : Option Port)
include buffer

/-- The report of a FLUSH's readout touches the part of the record's port alone. -/
theorem State.offPort_flushStarted : State.OffPort (slotOwner r.slot)
    { (s.readout c).1 with seq := { (s.readout c).1.seq with
      converting := some ⟨.flush s.seq.selectedChannel, BitVec.ofNat 32 s.now⟩, doneTimeout := some (s.now + 20) } }
    (s.flushStarted c) :=
  .handReport _ fun _ made => congrArg slotOwner (State.slot_report buffer made)

variable {p : Port} (other : slotOwner r.slot ≠ p)
include other

theorem State.port_flushStarted : (s.flushStarted c).port p = (s.readout c).1.port p :=
  (State.offPort_flushStarted buffer c).port p other.symm

theorem State.slot_flushStarted {i : SlotId} (own : slotOwner i = p) : (s.flushStarted c).slot i = s.slot i := by
  have notOwner : slotOwner i ≠ slotOwner r.slot := own ▸ other.symm
  refine ((State.offPort_flushStarted buffer c).slot i notOwner).trans ?_
  exact (State.DeliveredTo.readout buffer c).slot_ne i fun e => notOwner (congrArg slotOwner e)

omit other in
theorem State.stampsLeft_flushStarted (kept : SlotId → Prop) : State.StampsLeft kept s (s.flushStarted c) := by
  have read := (State.DeliveredTo.readout buffer c).stampsLeft kept
  refine read.trans (State.StampsLeft.trans ?_ (.handReport _ _))
  exact .of_same rfl fun _ _ _ => id

end

/-! ### The postings of the port -/

section
variable (s : State) (p : Port)

/-- The state in which a CLOSE comes to the pipeline: the reports about the port's sweeps are taken, and its postings ended. -/
def State.settled : State := (s.takePortReports p).endPortPostings p

theorem State.leaving_eq : s.leaving p = (s.settled p).leavePipeline p := rfl

theorem State.offPort_settled : State.OffPort p s (s.settled p) :=
  (State.OffPort.takePortReports s p).trans (.endPortPostings _ p)

theorem State.kept_settled : s.Kept (s.settled p) := (s.kept_takePortReports p).trans (State.kept_endPortPostings _ p)

/-- The port's postings have ended without a record: counters, due stamp and passed-over count stay (R16, R17). -/
theorem State.slot_settled {i : SlotId} (own : slotOwner i = p) : ((s.settled p).slot i).state = .idle ∧
    ((s.settled p).slot i).counters = ((s.takePortReports p).slot i).counters ∧
    ((s.settled p).slot i).dueStamp = ((s.takePortReports p).slot i).dueStamp ∧
    ((s.settled p).slot i).passedOver = ((s.takePortReports p).slot i).passedOver := by
  have slot : (s.settled p).slot i = _ := State.slot_endPostings (nodup_portSlots p) (s.takePortReports p) i
  rw [slot]
  split
  · exact ⟨rfl, rfl, rfl, rfl⟩
  · next ended =>
    exact ⟨Classical.byContradiction fun active => ended ⟨(mem_portSlots p i).mpr own, active⟩, rfl, rfl, rfl⟩

/-- The places that the port's postings still held are back in its queues (R16). -/
theorem State.port_settled : (s.settled p).port p = ((s.takePortReports p).port p).giveBoth
    ((portSlots p).map ((s.takePortReports p).stillHeld 1)).sum ((portSlots p).map ((s.takePortReports p).stillHeld 2)).sum :=
  State.port_endPostings (nodup_portSlots p) (fun i => (mem_portSlots p i).mp) _

/-- The question whether a CLOSE starts a FLUSH is put to records that the settling leaves. -/
theorem State.closesWithoutFlush_settled : (s.settled p).ClosesWithoutFlush p ↔ s.ClosesWithoutFlush p := by
  obtain ⟨cuts, reports, seq⟩ := (s.offPort_settled p).seq
  unfold State.ClosesWithoutFlush State.SelectedOf
  rw [seq]

/-! ### The state after the pipeline -/

/-- A CLOSE comes out of the pipeline without a FLUSH, or with one of another port's record. -/
theorem State.leaving_cases : (s.ClosesWithoutFlush p ∧ ∃ q k, s.leaving p = { s.settled p with seq := q, freeCount := k }) ∨
    ¬s.ClosesWithoutFlush p ∧ ∃ r start c, s.seq.buffer = some ⟨.sweep r, start⟩ ∧
      ((s.settled p).updSeq (Sequencer.retag p)).seq.buffer = some ⟨.sweep r, start⟩ ∧ slotOwner r.slot ≠ p ∧
      (c = none ∨ c = some p) ∧
      s.leaving p = (((s.settled p).updSeq (Sequencer.retag p)).flushStarted c).countFree := by
  by_cases noFlush : s.ClosesWithoutFlush p
  · exact .inl ⟨noFlush, State.leavePipeline_noFlush ((s.closesWithoutFlush_settled p).mpr noFlush)⟩
  · obtain ⟨r, start, c, buffer, other, closing, e⟩ :=
      State.leavePipeline_flush fun still => noFlush ((s.closesWithoutFlush_settled p).mp still)
    have was : s.seq.buffer = some ⟨.sweep r, start⟩ := by
      obtain ⟨cuts, reports, seq⟩ := (s.offPort_settled p).seq
      rw [seq] at buffer
      exact buffer
    exact .inr ⟨noFlush, r, start, c, was, (staleIfOwned_sweep_iff p _ r start).mpr ⟨buffer, other⟩, other, closing, e⟩

/-- The pipeline leaves the slots of the closing port. -/
theorem State.slot_leaving_own {i : SlotId} (own : slotOwner i = p) : (s.leaving p).slot i = (s.settled p).slot i := by
  obtain ⟨-, q, k, e⟩ | ⟨-, r, start, c, -, buffer, other, -, e⟩ := s.leaving_cases p
  · rw [e]
    rfl
  · rw [e, State.slot_countFree]
    exact State.slot_flushStarted buffer c other own

/-- The closing port after the pipeline: as it was, or as the readout of the flushed record leaves it. -/
theorem State.port_leaving_flush {r : SweepRecord} {start : DWord} {c : Option Port}
    (buffer : ((s.settled p).updSeq (Sequencer.retag p)).seq.buffer = some ⟨.sweep r, start⟩) (other : slotOwner r.slot ≠ p)
    (e : s.leaving p = (((s.settled p).updSeq (Sequencer.retag p)).flushStarted c).countFree) :
    (s.leaving p).port p = (((s.settled p).updSeq (Sequencer.retag p)).readout c).1.port p := by
  rw [e, State.port_countFree]
  exact State.port_flushStarted buffer c other

/-- The timeout counter of a port whose source is no queue passes through a CLOSE (R138). -/
theorem State.timeout_leaving (source : ∀ q, (s.port p).config.timeoutSource.toNat ≠ queueCode q) :
    ((s.leaving p).port p).timeout = (s.port p).timeout := by
  have settled := (s.offPort_settled p).timeout
  obtain ⟨-, q, k, e⟩ | ⟨-, r, start, c, -, buffer, other, -, e⟩ := s.leaving_cases p
  · rw [e]
    exact settled
  · rw [s.port_leaving_flush p buffer other e, State.timeout_readout buffer other ?_ c]
    · exact settled
    · rw [State.port_updSeq, (s.kept_settled p).config]
      exact source

/-- The stamps that other ports' requests hold stay; no stamp is issued (R42, R43). -/
theorem State.stampsLeft_leaving : State.StampsLeft (fun j => slotOwner j ≠ p) (s.takePortReports p) (s.leaving p) ∧
    (s.leaving p).arbiter.stampOrder.Sublist (s.settled p).arbiter.stampOrder := by
  have settled := State.StampsLeft.endPortPostings (s.takePortReports p) p
  have pipeline : State.StampsLeft (fun j => slotOwner j ≠ p) (s.settled p) (s.leaving p) := by
    obtain ⟨-, q, k, e⟩ | ⟨-, r, start, c, -, buffer, other, -, e⟩ := s.leaving_cases p
    · rw [e]
      exact .of_same rfl fun _ _ _ => id
    · have retagged : State.StampsLeft (fun j => slotOwner j ≠ p) (s.settled p)
          ((s.settled p).updSeq (Sequencer.retag p)) := .of_same rfl fun _ _ _ => id
      rw [e]
      exact (retagged.trans (State.stampsLeft_flushStarted buffer c _)).trans (.of_same rfl fun _ _ _ => id)
  exact ⟨settled.trans pipeline, pipeline.order⟩

/-! ### The FLUSH against the readout of the waiting record -/

/-- `s` without the port's accumulator entry. -/
def State.withoutEntry : State :=
  { s with seq := { s.seq with accumulator := s.seq.accumulator.filter fun a => slotOwner a.slot != p } }

/-- `s` without the port's accumulator entry and with the places that its postings still held returned to its queues. -/
def State.placesReturned : State := (s.withoutEntry p).updPort p
  (PortState.giveBoth ((portSlots p).map (s.stillHeld 1)).sum ((portSlots p).map (s.stillHeld 2)).sum)

/-- The state that the FLUSH reads out, against the state before the endings: the other ports' parts are the same. -/
theorem State.alike_settled : State.Alike p (· ≠ p) ((s.takePortReports p).withoutEntry p)
    ((s.settled p).updSeq (Sequencer.retag p)) := by
  have kept := (s.takePortReports p).kept_endPortPostings p
  have off := State.OffPort.endPortPostings (s.takePortReports p) p
  exact ⟨kept.now, kept.cal, kept.mode, off.port, off.slot⟩

/-- With the places returned, the closing port is the same too. -/
theorem State.alike_placesReturned : State.Alike p (fun _ => True) ((s.takePortReports p).placesReturned p)
    ((s.settled p).updSeq (Sequencer.retag p)) := by
  have kept := (s.takePortReports p).kept_endPortPostings p
  have off := State.OffPort.endPortPostings (s.takePortReports p) p
  have port : ∀ q, (s.settled p).port q = ((s.takePortReports p).placesReturned p).port q := fun q => by
    by_cases at_p : q = p
    · subst at_p
      rw [s.port_settled q, State.placesReturned, State.port_updPort_self]
      rfl
    · rw [State.placesReturned, State.port_updPort_ne _ _ at_p]
      exact off.port q at_p
  exact ⟨kept.now, kept.cal, fun q => congrArg PortState.mode (port q), fun q _ => port q, off.slot⟩

/-- The converter's code and the accumulator that the FLUSH's readout meets. -/
theorem State.seq_settled_retag :
    ((s.settled p).updSeq (Sequencer.retag p)).seq.converterCode = (s.takePortReports p).seq.converterCode ∧
    ((s.settled p).updSeq (Sequencer.retag p)).seq.accumulator =
      (s.takePortReports p).seq.accumulator.filter fun a => slotOwner a.slot != p := by
  obtain ⟨cuts, reports, seq⟩ := (State.OffPort.endPortPostings (s.takePortReports p) p).seq
  have settled : (s.settled p).seq = { (s.takePortReports p).seq with cuts := cuts, reports := reports } := seq
  rw [State.seq_updSeq, settled]
  exact ⟨rfl, rfl⟩

theorem State.buffer_takePortReports : (s.takePortReports p).seq.buffer = s.seq.buffer := by
  obtain ⟨cuts, reports, seq⟩ := (State.OffPort.takePortReports s p).seq
  rw [seq]

/-- The other ports and slots after a CLOSE with a FLUSH are as the readout of the waiting record leaves them. -/
theorem State.leaving_others {r : SweepRecord} {start : DWord} {c : Option Port} (was : s.seq.buffer = some ⟨.sweep r, start⟩)
    (buffer : ((s.settled p).updSeq (Sequencer.retag p)).seq.buffer = some ⟨.sweep r, start⟩) (other : slotOwner r.slot ≠ p)
    (closing : c = none ∨ c = some p)
    (e : s.leaving p = (((s.settled p).updSeq (Sequencer.retag p)).flushStarted c).countFree) :
    let waiting := (s.takePortReports p).withoutEntry p
    State.Alike p (· ≠ p) ((waiting.readout none).1.handReport (waiting.readout none).2) (s.leaving p) := by
  intro waiting
  obtain ⟨code, accumulator⟩ := s.seq_settled_retag p
  have before : waiting.seq.buffer = some ⟨.sweep r, start⟩ := (s.buffer_takePortReports p).trans was
  obtain ⟨read, report⟩ := (s.alike_settled p).readout before buffer code accumulator other other (c := none) (d := c)
    fun q hq => by
      obtain rfl | rfl := closing
      · rfl
      · simp [hq.symm]
  have handed : State.Alike p (· ≠ p) ((waiting.readout none).1.handReport (waiting.readout none).2)
      (((s.settled p).updSeq (Sequencer.retag p)).flushStarted c) := by
    unfold State.flushStarted
    dsimp only
    rw [report]
    refine State.Alike.handReport ?_ fun x made => ?_
    · exact read.of_same rfl rfl rfl rfl rfl rfl rfl rfl
    · rw [State.slot_report before made]
      exact ⟨other, other⟩
  rw [e]
  exact handed.of_same rfl rfl rfl rfl rfl rfl rfl rfl

/-- The closing port that is offered the flushed sample evaluates it with its postings' places returned. -/
theorem State.port_readout_placesReturned {r : SweepRecord} {start : DWord} (was : s.seq.buffer = some ⟨.sweep r, start⟩)
    (buffer : ((s.settled p).updSeq (Sequencer.retag p)).seq.buffer = some ⟨.sweep r, start⟩) (other : slotOwner r.slot ≠ p) :
    (((s.settled p).updSeq (Sequencer.retag p)).readout none).1.port p =
      (((s.takePortReports p).placesReturned p).readout none).1.port p := by
  obtain ⟨code, accumulator⟩ := s.seq_settled_retag p
  have before : ((s.takePortReports p).placesReturned p).seq.buffer = some ⟨.sweep r, start⟩ :=
    (s.buffer_takePortReports p).trans was
  obtain ⟨read, -⟩ := (s.alike_placesReturned p).readout before buffer code accumulator other trivial (c := none) (d := none)
    fun _ _ => Iff.rfl
  exact read.port p trivial

end

/-! ### CLOSE -/

/-- The emptied port (R148). -/
theorem PortState.shut_eq (ps : PortState) : ps.shut = { ps with
    mode := .closed, ring0 := Ring.empty, ring1 := Ring.empty, latest := Vector.replicate 16 LatestSlot.empty, completions := []
    timeout := if ps.config.timeoutSource = 1 ∨ ps.config.timeoutSource = 2 then
      { value := ps.config.timeoutPreset.toNat, state := .held, elapsed := 0 } else ps.timeout } := by
  unfold PortState.shut
  rw [PortState.emptySamples_eq]

/-- CLOSE of an OPEN port is answered OK. -/
theorem exec_closePort {s : State} {p : Port} (h : s.OpenAtCommand p) :
    exec (.closePort p) s = .next (((s.withCode p 2).closeEffects p).answered p 2 2 .ok) := by
  have code : (((s.withCode p 2).closeEffects p).port p).commandWord = 2 := by
    obtain ⟨command, -⟩ := (s.withCode p 2).words_closeEffects p
    rw [command, State.port_withCode, if_pos rfl]
  exact congrArg Host.Outcome.next (State.openCommand_answered h (Prod.ext (State.withCode_id code).symm rfl))

/-- The timeout counter after a CLOSE (R138, R148). -/
theorem State.timeout_closeEffects (s : State) (p : Port) : ((s.closeEffects p).port p).timeout =
    if (s.port p).config.timeoutSource.toNat = 1 ∨ (s.port p).config.timeoutSource.toNat = 2 then
      ⟨(s.port p).config.timeoutPreset.toNat, .held, 0⟩ else (s.port p).timeout := by
  have sourced : ∀ q, (s.port p).config.timeoutSource = BitVec.ofNat 16 (queueCode q) ↔
      (s.port p).config.timeoutSource.toNat = queueCode q := fun q => by
    cases q <;> exact BitVec.toNat_eq
  rw [State.port_closeEffects_self, PortState.shut_eq, ((s.kept_leaving p).setup p).config]
  refine ite_congr (propext (or_congr (sourced .q0) (sourced .q1))) (fun _ => rfl) fun nowhere => ?_
  exact s.timeout_leaving p fun q at_q => nowhere (match q with | .q0 => .inl at_q | .q1 => .inr at_q)

/-- Flags and watched set of the closing port before the pipeline: no ending without a record raises an event. -/
theorem State.flags_settled (s : State) (p : Port) : ((s.settled p).port p).flags = ((s.takePortReports p).port p).flags ∧
    ((s.settled p).port p).watched = (s.port p).watched :=
  ⟨(congrArg PortState.flags (s.port_settled p) :), (s.offPort_settled p).watched⟩

/-- Flags and watched set of a port that closes with a FLUSH: unchanged, or as its evaluation of the sample leaves them. -/
theorem State.flags_leaving_flush (s : State) (p : Port) (flushes : ¬s.ClosesWithoutFlush p) :
    let offered := (((s.takePortReports p).placesReturned p).readout none).1.port p
    ((s.leaving p).port p).flags = ((s.takePortReports p).port p).flags ∧
        ((s.leaving p).port p).watched = (s.port p).watched ∨
      ((s.leaving p).port p).flags = offered.flags ∧ ((s.leaving p).port p).watched = offered.watched := by
  obtain ⟨noFlush, -⟩ | ⟨-, r, start, c, was, buffer, other, closing, e⟩ := s.leaving_cases p
  · exact absurd noFlush flushes
  · rw [s.port_leaving_flush p buffer other e]
    obtain rfl | rfl := closing
    · rw [s.port_readout_placesReturned p was buffer other]
      exact .inr ⟨rfl, rfl⟩
    · rw [State.port_readout_closing buffer other]
      exact .inl (s.flags_settled p)

/-- Settles O17: the parts of the CLOSE, each by its lemma above; the two cases of the pipeline are `State.leaving_cases`. -/
theorem closePort : Obligations.ClosePort := by
  unfold Obligations.ClosePort
  refine ⟨fun p s h => ⟨2, exec_closePort h⟩, ?_⟩
  intro p s _ t u returned waiting flushed offered source
  have setup := (s.kept_leaving p).setup p
  have port : t.port p = _ := (s.port_closeEffects_self p).trans (PortState.shut_eq _)
  have ports : ∀ q, q ≠ p → t.port q = (s.leaving p).port q := fun q other => s.port_closeEffects_ne p other
  have slots : ∀ i, t.slot i = (s.leaving p).slot i := s.slot_closeEffects p
  have arbiter : t.arbiter = (s.leaving p).arbiter := s.arbiter_closeEffects p
  have flags : (t.port p).flags = ((s.leaving p).port p).flags := (congrArg PortState.flags port :)
  have watched : (t.port p).watched = ((s.leaving p).port p).watched := (congrArg PortState.watched port :)
  obtain ⟨stamps, shrinks⟩ := s.stampsLeft_leaving p
  refine ⟨congrArg PortState.mode port, congrArg PortState.ring0 port, congrArg PortState.ring1 port, fun n => ?_,
    congrArg PortState.completions port, s.timeout_closeEffects p, (congrArg PortState.config port).trans setup.config,
    (congrArg PortState.filters port).trans setup.filters, (congrArg PortState.unmatched port).trans setup.unmatched,
    (congrArg PortState.enables port).trans setup.enables, fun i own => ?_, fun noFlush => ?_, fun flushes => ?_,
    fun holds => ?_, s.cal_closeEffects_of_not p, s.lines_closeEffects p, s.store_closeEffects p, ?_, s.now_closeEffects p,
    s.lastGranted_closeEffects p, (congrArg Arbiter.stampCounter arbiter).trans stamps.counter, ?_, fun w mem => ⟨?_, ?_⟩⟩
  · rw [port]
    exact tget_replicate _ n
  · obtain ⟨idle, counters, dueStamp, passedOver⟩ := s.slot_settled p own
    have fields := (s.kept_settled p).fields i
    rw [slots, s.slot_leaving_own p own]
    exact ⟨idle, fields, counters, dueStamp, passedOver⟩
  · obtain ⟨-, q, k, e⟩ | ⟨flushes, -⟩ := s.leaving_cases p
    · have off := s.offPort_settled p
      obtain ⟨flagsKept, watchedKept⟩ := s.flags_settled p
      rw [e] at flags watched ports slots
      exact ⟨flags.trans flagsKept, watched.trans watchedKept, fun i other => (slots i).trans (off.slot i other),
        fun q other => (ports q other).trans (off.port q other)⟩
    · exact absurd noFlush flushes
  · have closing := s.flags_leaving_flush p flushes
    obtain ⟨noFlush, -⟩ | ⟨-, r, start, c, was, buffer, other, either, e⟩ := s.leaving_cases p
    · exact absurd noFlush flushes
    · have others := s.leaving_others p was buffer other either e
      rw [flags, watched]
      exact ⟨fun i other => (slots i).trans (others.slot i other), fun q other => (ports q other).trans (others.port q other),
        closing⟩
  · obtain ⟨holder, -, entries⟩ := s.cal_closeEffects_of_holds p holds
    exact ⟨holder, entries⟩
  · by_cases holds : s.HoldsLease p
    · obtain ⟨-, commit, -⟩ := s.cal_closeEffects_of_holds p holds
      exact commit
    · exact congrArg Calibration.commit (s.cal_closeEffects_of_not p holds)
  · rw [arbiter]
    exact stamps.order
  · rintro ⟨j, other, holds⟩
    obtain ⟨-, stays⟩ := stamps.held w j other holds
    rw [arbiter]
    exact stays mem
  · intro held only
    rw [arbiter]
    have left : w ∉ (s.settled p).arbiter.stampOrder := State.stamp_leaves (nodup_portSlots p) (s.takePortReports p) held
      fun j holds => (mem_portSlots p j).mpr (only j holds)
    exact fun stays => left (shrinks.subset stays)

end Sys2Proof.Machine
end

section
/-! SUPPORT. The waiting commands: a step takes the front one, and every command answers a next state and leaves the rest. For
the acquisition side this is a part of `State.Kept`; a command of a master leaves them if its body does (`LeavesQueue`). -/
namespace Sys2Proof.Machine

/-! ### One step -/

/-- With a command at the front of the queue, a step is that command, on the state with the rest of the queue. -/
theorem step_of_pending {s : State} {c : Instr} {rest : List Instr} (h : s.pending = c :: rest) :
    step s = exec c { s with pending := rest } := by
  unfold step
  rw [h]

/-- On an empty queue a step takes the first waiting report, else the event that is due, else a microsecond passes. -/
theorem step_of_pending_nil {s : State} (h : s.pending = []) : step s =
    if s.reportDue then .next s.takeFirstReport else s.dueEvent.elim (.next s.passMicrosecond) fun c => exec c s := by
  unfold step
  rw [h]
  refine ite_congr rfl (fun _ => rfl) fun _ => ?_
  cases s.dueEvent <;> rfl

/-- Settles O1: `step_of_pending`, on the state whose queue is written out. -/
theorem stepTakesTheFrontCommand : Obligations.StepTakesTheFrontCommand := by
  unfold Obligations.StepTakesTheFrontCommand
  intro c rest s
  exact step_of_pending (s := { s with pending := c :: rest }) rfl

/-! ### Folds and the words of a frame -/

/-- A fold of operations that leave the waiting commands, leaves them. -/
theorem State.pending_foldl {α : Type} {f : State → α → State} (hf : ∀ s a, (f s a).pending = s.pending) (l : List α)
    (s : State) : (l.foldl f s).pending = s.pending :=
  List.foldlRecOn (motive := fun t => t.pending = s.pending) l f rfl fun t ht a _ => (hf t a).trans ht

theorem State.pending_takeWord {s : State} {p : Port} {k : WordKind} {body : BitVec 12 → State → State}
    (hb : ∀ a, (body a s).pending = s.pending) : (s.takeWord p k body).pending = s.pending := by
  unfold State.takeWord
  split
  · exact hb _
  · rfl

theorem State.pending_writeSlotWord (s : State) (p : Port) (v : Word) (a : BitVec 12) :
    (s.writeSlotWord p v a).pending = s.pending := by
  unfold State.writeSlotWord
  split
  · split <;> rfl
  · rfl

theorem State.pending_captureRead (s : State) (p : Port) (a : BitVec 12) (rest : List (BitVec 12)) :
    (s.captureRead p a rest).pending = s.pending := by
  unfold State.captureRead
  split
  · split <;> rfl
  · rfl

/-! ### The bodies of the commands of a master -/

/-- What a command does beside its answer leaves the waiting commands. -/
def LeavesQueue (body : State → State × ResultCode) : Prop := ∀ s : State, (body s).1.pending = s.pending

namespace LeavesQueue
variable {p : Port} {body : State → State × ResultCode}

theorem issue (h : LeavesQueue body) (code : Word) (recorded : BitVec 5) (s : State) :
    (s.issue p code recorded body).pending = s.pending :=
  State.pending_takeWord fun _ => h _

theorem command (h : LeavesQueue body) (n : Nat) (s : State) : (s.command p n body).pending = s.pending :=
  h.issue _ _ s

theorem whenOpen (h : LeavesQueue body) : LeavesQueue (State.whenOpen p body) := fun s => by
  unfold State.whenOpen
  split
  · exact h s
  · rfl

theorem withTimer {body : Fin 4 → State → State × ResultCode} (h : ∀ n, LeavesQueue (body n)) :
    LeavesQueue (State.withTimer p body) := fun s => by
  unfold State.withTimer
  split
  · rfl
  · exact h _ s

theorem withOwnTimer {body : Fin 4 → State → State × ResultCode} (h : ∀ n, LeavesQueue (body n)) :
    LeavesQueue (State.withOwnTimer p body) :=
  withTimer fun n s => by
    split
    · exact h n s
    · rfl

theorem leaseCommand (h : LeavesQueue body) : LeavesQueue (State.leaseCommand p body) := fun s => by
  unfold State.leaseCommand
  dsimp only
  split
  · exact h s
  · exact h s

theorem withChannel {body : Channel → State → State × ResultCode} (h : ∀ ch, LeavesQueue (body ch)) :
    LeavesQueue (State.withChannel p body) := fun s => by
  unfold State.withChannel
  split
  · rfl
  · split
    · exact h _ s
    · rfl

end LeavesQueue

/-! ### Ports -/

theorem leavesQueue_openPort (p : Port) : LeavesQueue (State.openPort p) := fun s => by
  obtain e | ⟨-, -, -, e⟩ := s.openPort_cases p
  · rw [e]
  · rw [e, State.pending_updPort]

theorem State.pending_closeEffects (s : State) (p : Port) : (s.closeEffects p).pending = s.pending := by
  rw [s.closeEffects_eq, State.pending_updPort, State.pending_leaveLease]
  exact (s.kept_closing p).pending

theorem State.pending_portReset (s : State) (p : Port) : (s.portReset p).pending = s.pending := by
  obtain ⟨v, e, -⟩ := s.portReset_eq p
  rw [e]
  show (if (s.port p).mode = .opened then s.closeEffects p else s).pending = s.pending
  split
  · exact s.pending_closeEffects p
  · rfl

theorem leavesQueue_resetByCommand (p : Port) : LeavesQueue (State.resetByCommand p) := fun s => s.pending_portReset p

theorem State.pending_portResetLine (s : State) (p : Port) : (s.portResetLine p).pending = s.pending := by
  unfold State.portResetLine
  split
  · rfl
  · exact s.pending_portReset p

/-- A device reset leaves the waiting commands waiting (R150). -/
theorem State.pending_resetAll (s : State) (b : Bool) : (s.resetAll b).pending = s.pending := rfl

/-! ### Requests, queues and the converter -/

theorem leavesQueue_post (p : Port) : LeavesQueue (State.post p) := fun s => by
  unfold State.post
  split
  · rfl
  · dsimp only
    split
    · exact (s.kept_takePost _).pending
    · rfl

theorem leavesQueue_cancel (p : Port) : LeavesQueue (State.cancel p) := fun s => by
  unfold State.cancel
  split
  · rfl
  · split
    · rfl
    · exact (s.kept_takeCancel _ _).pending

theorem leavesQueue_trigger (p : Port) : LeavesQueue (State.trigger p) := fun s => by
  unfold State.trigger
  split
  · rfl
  · split
    · rfl
    · split
      · rfl
      · exact (s.kept_deliverTriggers _).pending

theorem leavesQueue_ackQueue (p : Port) : LeavesQueue (State.ackQueue p) := fun s => by
  unfold State.ackQueue
  split
  · rfl
  · dsimp only
    split
    · exact (State.kept_returnStalled _ p _).pending
    · rfl

theorem leavesQueue_releaseSlots (p : Port) : LeavesQueue (State.releaseSlots p) := fun _ => rfl

theorem leavesQueue_popCompletion (p : Port) : LeavesQueue (State.popCompletion p) := fun s => by
  unfold State.popCompletion
  split <;> rfl

theorem leavesQueue_restartConverter : LeavesQueue State.restartConverter := fun s => by
  unfold State.restartConverter
  split <;> rfl

/-! ### Timers and lines -/

theorem leavesQueue_claimTimer (p : Port) : LeavesQueue (State.claimTimer p) := .withTimer fun _ _ => rfl

theorem leavesQueue_setTimer (p : Port) : LeavesQueue (State.setTimer p) :=
  .withOwnTimer fun _ s => by
    dsimp only
    split <;> rfl

theorem leavesQueue_startTimer (p : Port) : LeavesQueue (State.startTimer p) := .withOwnTimer fun _ _ => rfl

theorem leavesQueue_stopTimer (p : Port) : LeavesQueue (State.stopTimer p) := .withOwnTimer fun _ _ => rfl

theorem leavesQueue_releaseTimer (p : Port) : LeavesQueue (State.releaseTimer p) := .withOwnTimer fun _ _ => rfl

theorem leavesQueue_setLine (p : Port) : LeavesQueue (State.setLine p) := fun s => by
  unfold State.setLine
  split
  · split <;> rfl
  · rfl

theorem State.pending_qualifiedChange (s : State) (n : Fin 4) (level : Bool) :
    (s.qualifiedChange n level).pending = s.pending := by
  unfold State.qualifiedChange
  dsimp only
  split
  · exact (State.kept_deliverTriggers _ _).pending
  · rfl

theorem State.pending_lineInputChange (s : State) (n : Fin 4) (level : Bool) :
    (s.lineInputChange n level).pending = s.pending := by
  unfold State.lineInputChange
  dsimp only
  split
  · rfl
  · split
    · rfl
    · split
      · rfl
      · split
        · exact State.pending_qualifiedChange _ n level
        · split <;> rfl

theorem State.pending_lineQualificationEnd (s : State) (n : Fin 4) : (s.lineQualificationEnd n).pending = s.pending := by
  unfold State.lineQualificationEnd
  split
  · split
    · exact s.pending_qualifiedChange n _
    · rfl
  · rfl

/-! ### The lease and the store -/

theorem leavesQueue_takeLease (p : Port) : LeavesQueue (State.takeLease p) := fun s => by
  unfold State.takeLease
  dsimp only
  split
  · rfl
  · split <;> rfl

theorem leavesQueue_endLease (p : Port) : LeavesQueue (State.endLease p) := fun s => by
  obtain ⟨t, r, e, -⟩ := s.dropLease_eq
  unfold State.endLease
  rw [e]
  split <;> rfl

theorem State.pending_leaseExpiry (s : State) : s.leaseExpiry.pending = s.pending := by
  obtain ⟨t, e, -⟩ := s.discardProvisional_eq
  unfold State.leaseExpiry
  rw [e]
  split
  · split <;> rfl
  · rfl

theorem leavesQueue_setProvisional (p : Port) : LeavesQueue (State.setProvisional p) := fun s => by
  unfold State.setProvisional
  split
  · rfl
  · split
    · rfl
    · split <;> rfl

theorem leavesQueue_dropProvisional (p : Port) : LeavesQueue (State.dropProvisional p) :=
  .withChannel fun _ s => by
    split <;> rfl

theorem leavesQueue_commit (p : Port) : LeavesQueue (State.commit p) :=
  .withChannel fun _ s => by
    split
    · rfl
    · split <;> rfl

theorem leavesQueue_burnFactory (p : Port) : LeavesQueue (State.burnFactory p) :=
  .withChannel fun _ s => by
    split
    · rfl
    · split
      · rfl
      · split <;> rfl

theorem leavesQueue_reload (p : Port) : LeavesQueue (State.reload p) :=
  .withChannel fun _ s => by
    split <;> rfl

theorem State.pending_takeWriteReport (s : State) (verified : Bool) : (s.takeWriteReport verified).pending = s.pending := by
  unfold State.takeWriteReport
  split <;> rfl

theorem State.pending_storeWriteEnd (s : State) (verified : Bool) : (s.storeWriteEnd verified).pending = s.pending := by
  unfold State.storeWriteEnd
  split
  · split
    · exact State.pending_takeWriteReport _ verified
    · exact State.pending_takeWriteReport _ verified
    all_goals rfl
  · rfl

theorem State.pending_storeReadEnd (s : State) : s.storeReadEnd.pending = s.pending := by
  unfold State.storeReadEnd
  split
  · split
    · dsimp only
      split <;> rfl
    all_goals rfl
  · rfl

theorem State.pending_loadChannelEnd (s : State) : s.loadChannelEnd.pending = s.pending := by
  unfold State.loadChannelEnd
  split
  · split
    · dsimp only
      split <;> rfl
    all_goals rfl
  · rfl

/-! ### Time -/

theorem State.pending_passMicrosecond (s : State) : s.passMicrosecond.pending = s.pending := by
  have timers := State.pending_foldl (f := fun s n => s.updTimer n Timer.tick) (fun _ _ => rfl) allTimers
  have ports := State.pending_foldl (f := fun s p => s.updPort p PortState.tick) (fun _ _ => rfl) allPorts
  unfold State.passMicrosecond
  split
  · rfl
  · rw [State.pending_updLease, ports, timers]

/-! ### Every command -/

/-- Every command answers a next state with the same waiting commands. -/
theorem exec_next_pending (c : Instr) (s : State) : ∃ t, exec c s = .next t ∧ t.pending = s.pending := by
  cases c with
  | frameHeader p header => exact ⟨_, rfl, by split <;> rfl⟩
  | frameEnd p => exact ⟨_, rfl, rfl⟩
  | writeWord p v => exact ⟨_, rfl, by split <;> exact State.pending_takeWord fun _ => rfl⟩
  | slotFieldWrite p v => exact ⟨_, rfl, State.pending_takeWord fun a => s.pending_writeSlotWord p v a⟩
  | configurationWrite p v => exact ⟨_, rfl, State.pending_takeWord fun _ => rfl⟩
  | eventFlagWrite p v => exact ⟨_, rfl, State.pending_takeWord fun _ => rfl⟩
  | eventEnableWrite p v => exact ⟨_, rfl, State.pending_takeWord fun _ => rfl⟩
  | watchedChannelWrite p v => exact ⟨_, rfl, State.pending_takeWord fun _ => rfl⟩
  | timestampLowRead p => exact ⟨_, rfl, s.pending_captureRead p _ _⟩
  | counterLowWordRead p i j => exact ⟨_, rfl, s.pending_captureRead p _ _⟩
  | recordFirstWordRead p r => exact ⟨_, rfl, s.pending_captureRead p _ _⟩
  | resultWordRead p => exact ⟨_, rfl, s.pending_captureRead p _ _⟩
  | unknownCommand p code =>
    refine ⟨_, rfl, ?_⟩
    split
    · rfl
    · exact LeavesQueue.issue (fun _ => rfl) code 0 s
  | openPort p => exact ⟨_, rfl, (leavesQueue_openPort p).command 1 s⟩
  | closePort p => exact ⟨_, rfl, (LeavesQueue.whenOpen fun s => s.pending_closeEffects p).command 2 s⟩
  | resetPort p =>
    refine ⟨_, rfl, ?_⟩
    split
    · exact State.pending_portReset _ p
    · exact (leavesQueue_resetByCommand p).command 3 s
  | post p => exact ⟨_, rfl, (leavesQueue_post p).whenOpen.command 4 s⟩
  | cancel p => exact ⟨_, rfl, (leavesQueue_cancel p).whenOpen.command 5 s⟩
  | trigger p => exact ⟨_, rfl, (leavesQueue_trigger p).whenOpen.command 6 s⟩
  | ackQueue p => exact ⟨_, rfl, (leavesQueue_ackQueue p).whenOpen.command 7 s⟩
  | releaseSlots p => exact ⟨_, rfl, (leavesQueue_releaseSlots p).whenOpen.command 8 s⟩
  | popCompletion p => exact ⟨_, rfl, (leavesQueue_popCompletion p).command 9 s⟩
  | claimTimer p => exact ⟨_, rfl, (leavesQueue_claimTimer p).whenOpen.command 10 s⟩
  | setTimer p => exact ⟨_, rfl, (leavesQueue_setTimer p).whenOpen.command 11 s⟩
  | startTimer p => exact ⟨_, rfl, (leavesQueue_startTimer p).whenOpen.command 12 s⟩
  | stopTimer p => exact ⟨_, rfl, (leavesQueue_stopTimer p).whenOpen.command 13 s⟩
  | releaseTimer p => exact ⟨_, rfl, (leavesQueue_releaseTimer p).whenOpen.command 14 s⟩
  | setLine p => exact ⟨_, rfl, (leavesQueue_setLine p).whenOpen.command 15 s⟩
  | lease p => exact ⟨_, rfl, (leavesQueue_takeLease p).leaseCommand.whenOpen.command 16 s⟩
  | endLease p => exact ⟨_, rfl, (leavesQueue_endLease p).whenOpen.command 17 s⟩
  | setProvisional p => exact ⟨_, rfl, (leavesQueue_setProvisional p).leaseCommand.whenOpen.command 18 s⟩
  | dropProvisional p => exact ⟨_, rfl, (leavesQueue_dropProvisional p).leaseCommand.whenOpen.command 19 s⟩
  | commit p => exact ⟨_, rfl, (leavesQueue_commit p).leaseCommand.whenOpen.command 20 s⟩
  | burnFactory p => exact ⟨_, rfl, (leavesQueue_burnFactory p).leaseCommand.whenOpen.command 21 s⟩
  | reload p => exact ⟨_, rfl, (leavesQueue_reload p).leaseCommand.whenOpen.command 22 s⟩
  | restartConverter p => exact ⟨_, rfl, leavesQueue_restartConverter.whenOpen.command 23 s⟩
  | deviceReset => exact ⟨_, rfl, by split <;> rfl⟩
  | deviceResetEnd => exact ⟨_, rfl, by split <;> rfl⟩
  | portResetLine p => exact ⟨_, rfl, s.pending_portResetLine p⟩
  | portResetLineRelease p => exact ⟨_, rfl, rfl⟩
  | lineInputChange n level => exact ⟨_, rfl, s.pending_lineInputChange n level⟩
  | lineQualificationEnd n => exact ⟨_, rfl, s.pending_lineQualificationEnd n⟩
  | timerUnit n => exact ⟨_, rfl, rfl⟩
  | timerExpiry n => exact ⟨_, rfl, (s.kept_timerExpiry n).pending⟩
  | grant => exact ⟨_, rfl, s.kept_grant.pending⟩
  | startConversion w => exact ⟨_, rfl, (s.kept_startConversion w).pending⟩
  | converterDone d => exact ⟨_, rfl, (s.kept_converterDone d.raw d.taking).pending⟩
  | doneTimeout => exact ⟨_, rfl, s.kept_doneTimeout.pending⟩
  | cut i => exact ⟨_, rfl, (s.kept_cut i).pending⟩
  | timeWrap =>
    refine ⟨_, rfl, ?_⟩
    split
    · exact s.pending_passMicrosecond
    · rfl
  | queueTimeoutTick p => exact ⟨_, rfl, rfl⟩
  | queueTimeoutExpiry p => exact ⟨_, rfl, rfl⟩
  | leaseExpiry => exact ⟨_, rfl, s.pending_leaseExpiry⟩
  | storeWriteEnd b => exact ⟨_, rfl, s.pending_storeWriteEnd b⟩
  | storeReadEnd => exact ⟨_, rfl, s.pending_storeReadEnd⟩
  | loadChannelEnd => exact ⟨_, rfl, s.pending_loadChannelEnd⟩

theorem exec_next (c : Instr) (s : State) : ∃ t, exec c s = .next t := by
  obtain ⟨t, e, -⟩ := exec_next_pending c s
  exact ⟨t, e⟩

/-- Every step answers a next state: a command does, and the part's own work by itself never stops. -/
theorem step_next (s : State) : ∃ t, step s = .next t := by
  cases queue : s.pending with
  | cons c rest =>
    rw [step_of_pending queue]
    exact exec_next c _
  | nil =>
    rw [step_of_pending_nil queue]
    split
    · exact ⟨_, rfl⟩
    · cases s.dueEvent with
      | none => exact ⟨_, rfl⟩
      | some c => exact exec_next c s

/-- Settles O2: the commands by `exec_next_pending`, the steps by `step_next`. -/
theorem everyCommandAnswersANextState : Obligations.EveryCommandAnswersANextState := by
  unfold Obligations.EveryCommandAnswersANextState
  exact ⟨exec_next_pending, step_next⟩

end Sys2Proof.Machine
end

section
/-! SUPPORT. What the acquisition side does to requests, timer references and the conversion chain: apart from endings,
which drop a reference (R16, R30), the Request Table leaves all three, and the pipeline beside it touches the chain alone. A
property that endings and chain updates keep is kept by all this work. -/
namespace Sys2Proof.Machine

/-! ### States with the same requests, timers and chain -/

/-- `r` is `q` but for the cuts and the reports that wait. -/
def Sequencer.ChainSame (q r : Sequencer) : Prop := ∃ cuts reports, r = { q with cuts := cuts, reports := reports }

namespace Sequencer.ChainSame
variable {q r v : Sequencer}

theorem refl (q : Sequencer) : q.ChainSame q := ⟨q.cuts, q.reports, rfl⟩

theorem trans (h : q.ChainSame r) (k : r.ChainSame v) : q.ChainSame v := by
  obtain ⟨c, l, rfl⟩ := h
  obtain ⟨c', l', rfl⟩ := k
  exact ⟨c', l', rfl⟩

end Sequencer.ChainSame

/-- `t` has the pacing timers and the conversion chain of `s`, and its slots hold the same requests. -/
structure State.RequestsSame (s t : State) : Prop where
  timers : t.timers = s.timers
  chain : s.seq.ChainSame t.seq
  fields : ∀ i, (t.slot i).fields = (s.slot i).fields
  idle : ∀ i, (t.slot i).state = .idle ↔ (s.slot i).state = .idle

namespace State.RequestsSame
variable {s t u : State}

theorem of_queues (h : s.QueuesSame t) (timers : t.timers = s.timers) (chain : s.seq.ChainSame t.seq) :
    s.RequestsSame t := ⟨timers, chain, fun i => (h.slot i).fields, fun i => (h.slot i).idle⟩

/-- Work that leaves timers, chain and slots. -/
theorem of_slots (slots : t.slots = s.slots) (timers : t.timers = s.timers) (chain : s.seq.ChainSame t.seq) :
    s.RequestsSame t := by
  have slot : ∀ i, t.slot i = s.slot i := fun i => congrArg (tget · i) slots
  exact ⟨timers, chain, fun i => by rw [slot i], fun i => by rw [slot i]⟩

theorem refl (s : State) : s.RequestsSame s := of_slots rfl rfl (.refl _)

theorem trans (h : s.RequestsSame t) (k : t.RequestsSame u) : s.RequestsSame u :=
  ⟨k.timers.trans h.timers, h.chain.trans k.chain, fun i => (k.fields i).trans (h.fields i),
    fun i => (k.idle i).trans (h.idle i)⟩

theorem foldl {α : Type} {f : State → α → State} (hf : ∀ (s : State) (a : α), s.RequestsSame (f s a)) (l : List α)
    (s : State) : s.RequestsSame (l.foldl f s) :=
  List.foldlRecOn l f (refl s) fun t ht a _ => ht.trans (hf t a)

theorem of_coreSame (h : s.CoreSame t) : s.RequestsSame t :=
  of_slots h.slots h.timers (h.seq ▸ .refl _)

theorem updPort (s : State) (p : Port) (f : PortState → PortState) : s.RequestsSame (s.updPort p f) :=
  of_slots rfl rfl (.refl _)

theorem updSlot (s : State) (i : SlotId) {f : Slot → Slot} (h : (s.slot i).PostingSame (f (s.slot i))) :
    s.RequestsSame (s.updSlot i f) := of_queues (.updSlot s i h) rfl (.refl _)

/-- An update of a slot that leaves its fields and its state. -/
theorem updSlot_same (s : State) (i : SlotId) {f : Slot → Slot} (fields : (f (s.slot i)).fields = (s.slot i).fields)
    (state : (f (s.slot i)).state = (s.slot i).state) : s.RequestsSame (s.updSlot i f) := by
  refine ⟨rfl, .refl _, fun j => ?_, fun j => ?_⟩
  all_goals
    rw [State.slot_updSlot]
    split
  · next e => exact e ▸ fields
  · rfl
  · next e => exact e ▸ by rw [state]
  · rfl

theorem makeDue {ids : List SlotId} (active : ∀ i ∈ ids, (s.slot i).state ≠ .idle) : s.RequestsSame (s.makeDue ids) := by
  have folded : ∀ (stamp : Word) (l : List SlotId) (u : State), u.timers = s.timers → u.seq = s.seq →
      (l.foldl (fun s i => s.updSlot i (Slot.becomeDue stamp)) u).timers = s.timers ∧
        (l.foldl (fun s i => s.updSlot i (Slot.becomeDue stamp)) u).seq = s.seq := fun stamp l u timers seq =>
    List.foldlRecOn (motive := fun t : State => t.timers = s.timers ∧ t.seq = s.seq) l _ ⟨timers, seq⟩ fun _ ht _ _ => ht
  have same : (s.makeDue ids).timers = s.timers ∧ (s.makeDue ids).seq = s.seq := by
    unfold State.makeDue
    split
    · exact ⟨rfl, rfl⟩
    · exact folded _ _ s rfl rfl
  exact of_queues (.makeDue active) same.1 (same.2 ▸ .refl _)

/-- A request that returns from STALLED stays a request (R51). -/
theorem returnStalled (s : State) (p : Port) (q : QueueId) : s.RequestsSame (s.returnStalled p q) := by
  refine foldl (fun s i => ?_) _ s
  split
  · next fits =>
    have stalled := ((Slot.returnsFrom_iff _ q _).mp fits).1
    exact updSlot s i (.of_active rfl rfl (by simp [stalled]) nofun)
  · exact refl s

theorem returnHeld (s : State) (p : Port) (x : Slot) (examine : Bool) : s.RequestsSame (s.returnHeld p x examine) := by
  unfold State.returnHeld
  split
  · exact refl s
  · split
    · dsimp only
      split
      · exact (updPort s p _).trans (returnStalled _ p _)
      · exact updPort s p _
    · exact refl s

/-- A sample's delivery leaves every request one. -/
theorem deliverOwn (s : State) (x : Sample) (rec : SampleRecord) : s.RequestsSame (s.deliverOwn x rec) := by
  unfold State.deliverOwn
  dsimp only
  split
  · exact refl s
  · next ps stored _ =>
    have place : ∀ y : Slot, (y.consumePlace stored).fields = y.fields ∧ (y.consumePlace stored).state = y.state :=
      fun y => by
        unfold Slot.consumePlace
        split <;> exact ⟨rfl, rfl⟩
    exact ((updPort s _ _).trans (updSlot_same _ _ rfl rfl)).trans (updSlot_same _ _ (place _).1 (place _).2)

theorem deliver (s : State) (c : Option Port) (x : Sample) : s.RequestsSame (s.deliver c x) := by
  have own : s.RequestsSame ((s.updCounters x.slot fun c => { c with entriesProduced := c.entriesProduced + 1 }).deliverOwn
      x (s.copyRecord (slotOwner x.slot) false x)) := (updSlot_same s _ rfl rfl).trans (deliverOwn _ _ _)
  unfold State.deliver
  dsimp only
  split
  · refine own.trans (foldl (fun t p => ?_) _ _)
    split
    · exact updPort t p _
    · exact refl t
  · exact own

theorem openPort (s : State) (p : Port) : s.RequestsSame (s.openPort p).1 := by
  obtain e | ⟨-, -, -, e⟩ := s.openPort_cases p
  · rw [e]
    exact refl s
  · rw [e]
    exact updPort s p _

theorem popCompletion (s : State) (p : Port) : s.RequestsSame (s.popCompletion p).1 := by
  unfold State.popCompletion
  split
  · exact refl s
  · exact of_slots rfl rfl (.refl _)

theorem withCal (s : State) (c : Calibration) : s.RequestsSame { s with cal := c } := of_slots rfl rfl (.refl _)

theorem withStore (s : State) (x : Store) : s.RequestsSame { s with store := x } := of_slots rfl rfl (.refl _)

theorem takeLease (s : State) (p : Port) : s.RequestsSame (s.takeLease p).1 := by
  unfold State.takeLease
  dsimp only
  split
  · exact refl s
  · split
    · exact withCal s _
    · exact refl s

theorem dropLease (s : State) : s.RequestsSame s.dropLease := by
  obtain ⟨t, r, e, -⟩ := s.dropLease_eq
  exact e ▸ of_slots rfl rfl (.refl _)

theorem leaveLease (s : State) (p : Port) : s.RequestsSame (s.leaveLease p) := by
  obtain ⟨c, k, e⟩ := s.leaveLease_eq p
  exact e ▸ of_slots rfl rfl (.refl _)

theorem leaseExpiry (s : State) : s.RequestsSame s.leaseExpiry := by
  obtain ⟨t, e, -⟩ := s.discardProvisional_eq
  unfold State.leaseExpiry
  rw [e]
  split
  · split
    · exact of_slots rfl rfl (.refl _)
    · exact refl s
  · exact refl s

theorem takeWriteReport (s : State) (b : Bool) : s.RequestsSame (s.takeWriteReport b) := by
  unfold State.takeWriteReport
  split
  · exact of_slots rfl rfl (.refl _)
  · exact of_slots rfl rfl (.refl _)
  · exact refl s
  · exact refl s

/-- A POST does no more to requests, timers and chain than make the posting and take its timer reference (R9). -/
theorem takePost (s : State) (i : SlotId) :
    ((s.updSlot i Slot.posted).addTimerRef (s.slot i).fields).RequestsSame (s.takePost i) := by
  unfold State.takePost
  dsimp only
  split
  · refine makeDue fun j hj => ?_
    obtain rfl := List.mem_singleton.mp hj
    have armed : ((s.updSlot j Slot.posted).slot j).state = .armed := congrArg Slot.state (State.slot_updSlot_self s j _)
    unfold State.addTimerRef
    split <;> exact fun idle => nomatch armed.symm.trans idle
  · exact refl _

end State.RequestsSame

/-! ### A microsecond -/

/-- A microsecond, part by part (R28, R74, R96, R138). -/
theorem State.passMicrosecond_eq (s : State) (running : s.inReset = false) : ∃ ts ps,
    s.passMicrosecond = { s with
      now := s.now + 1, timers := ts, ports := ps, cal := { s.cal with lease := s.cal.lease.tick } } ∧
    (∀ n, tget ts n = (s.timer n).tick) ∧ ∀ p, ps.port p = (s.port p).tick := by
  unfold State.passMicrosecond
  rw [if_neg (by simp [running])]
  refine ⟨_, _, rfl, fun n => ?_, fun p => ?_⟩
  · show ((((s.updTimer 0 Timer.tick).updTimer 1 Timer.tick).updTimer 2 Timer.tick).updTimer 3 Timer.tick).timer n = _
    simp only [State.timer_updTimer]
    match n with
    | 0 => rfl
    | 1 => rfl
    | 2 => rfl
    | 3 => rfl
  · cases p <;> rfl

/-- While a device reset lasts no time passes (R150). -/
theorem State.passMicrosecond_inReset {s : State} (lasts : s.inReset = true) : s.passMicrosecond = s := by
  unfold State.passMicrosecond
  rw [if_pos lasts]

/-! ### The kinds of work -/

/-- What an ending does to requests and timers: slot `i` is IDLE, and its timer has lost a reference (R16). -/
def State.requestEnded (i : SlotId) (s : State) : State := (s.updSlot i Slot.ended).dropTimerRef (s.slot i).fields

/-- An ending does no more to requests, timers and chain than `State.requestEnded`. -/
theorem State.RequestsSame.endPosting {s : State} {i : SlotId} (active : (s.slot i).state ≠ .idle) (o : Option EndOutcome) :
    (s.requestEnded i).RequestsSame (s.endPosting i o) := by
  have ended : ∀ u : State, u.slots = s.slots → u.timers = s.timers → s.seq.ChainSame u.seq →
      (s.requestEnded i).RequestsSame ((((((u.updSlot i Slot.ended).dropTimerRef (s.slot i).fields).pruneStamps).forgetCut
        i)).returnHeld (slotOwner i) (s.slot i) o.isSome) := by
    intro u slots timers chain
    refine State.RequestsSame.trans (t := ((u.updSlot i Slot.ended).dropTimerRef (s.slot i).fields).pruneStamps.forgetCut i)
      ?_ (.returnHeld _ _ _ _)
    have dropped : ∀ f, ((u.updSlot i Slot.ended).dropTimerRef f).timers = ((s.updSlot i Slot.ended).dropTimerRef f).timers ∧
        ((u.updSlot i Slot.ended).dropTimerRef f).slots = ((s.updSlot i Slot.ended).dropTimerRef f).slots ∧
        ((u.updSlot i Slot.ended).dropTimerRef f).seq = u.seq ∧ ((s.updSlot i Slot.ended).dropTimerRef f).seq = s.seq := by
      intro f
      unfold State.dropTimerRef State.updTimer State.updSlot
      rw [slots, timers]
      split <;> exact ⟨rfl, rfl, rfl, rfl⟩
    obtain ⟨sameTimers, sameSlots, seqU, seqS⟩ := dropped (s.slot i).fields
    refine .of_slots sameSlots sameTimers ?_
    unfold State.requestEnded
    rw [seqS]
    refine chain.trans ⟨u.seq.cuts.filter (· != i), u.seq.reports, ?_⟩
    exact congrArg (fun q : Sequencer => { q with cuts := q.cuts.filter (· != i) }) seqU
  unfold State.endPosting
  dsimp only
  rw [if_neg active]
  cases o with
  | none => exact ended s rfl rfl (.refl _)
  | some o => exact ended _ rfl rfl (.refl _)

/-- What is asked of a property of states that all work on the requests keeps. -/
structure KeptByRequests (I : State → Prop) : Prop where
  same : ∀ s t, s.RequestsSame t → I s → I t
  ended : ∀ s i, (s.slot i).state ≠ .idle → I s → I (s.requestEnded i)

namespace KeptByRequests
variable {I : State → Prop} (k : KeptByRequests I) {s : State}
include k

theorem updPort (h : I s) (p : Port) (f : PortState → PortState) : I (s.updPort p f) := k.same _ _ (.updPort s p f) h

theorem updCounters (h : I s) (i : SlotId) (f : Counters → Counters) : I (s.updCounters i f) :=
  k.same _ _ (.updSlot_same s i rfl rfl) h

/-- Other cuts and reports wait. -/
theorem waiting (h : I s) (cuts reports : List SlotId) :
    I { s with seq := { s.seq with cuts := cuts, reports := reports } } :=
  k.same s _ (.of_slots rfl rfl ⟨cuts, reports, rfl⟩) h

theorem raiseAll (h : I s) (e : Event) : I (s.raiseAll e) := k.same _ _ (.of_coreSame (s.coreSame_raiseAll e)) h

theorem countFree (h : I s) : I s.countFree := k.same _ _ (.of_coreSame s.coreSame_countFree) h

/-- A posting that takes another state than IDLE. -/
theorem become (h : I s) {i : SlotId} (active : (s.slot i).state ≠ .idle) {x : SlotState} (is : x ≠ .idle) :
    I (s.updSlot i fun y => { y with state := x }) := k.same _ _ (.updSlot s i (.of_active rfl rfl active is)) h

omit k in
theorem foldl {α : Type} {f : State → α → State} (hf : ∀ (s : State) (a : α), I s → I (f s a)) (l : List α) (h : I s) :
    I (l.foldl f s) := List.foldlRecOn l f h fun t ht a _ => hf t a ht

theorem endPosting (h : I s) (i : SlotId) (o : Option EndOutcome) : I (s.endPosting i o) := by
  by_cases idle : (s.slot i).state = .idle
  · rw [State.endPosting_none_idle idle]
    exact h
  · exact k.same _ _ (.endPosting idle o) (k.ended s i idle h)

theorem takeTrigger (h : I s) (i : SlotId) : I (s.takeTrigger i) := by
  have missed : I ((s.updCounters i Counters.missTrigger).raise (slotOwner i) .triggerMissed) :=
    k.updPort (k.updCounters h i _) _ _
  have pending : I (s.updSlot i fun x => { x with pendingTrigger := true }) := k.same _ _ (.updSlot_same s i rfl rfl) h
  unfold State.takeTrigger
  dsimp only
  split
  · exact h
  · exact h
  · split
    · split
      · exact k.endPosting missed _ _
      · exact missed
    · exact pending
  · split
    · split
      · exact k.endPosting missed _ _
      · exact missed
    · exact pending
  · next running =>
    split
    · split
      · have state : ((s.updCounters i Counters.missTrigger).slot i).state = .running :=
          (congrArg Slot.state (State.slot_updSlot_self s i _)).trans running
        exact k.become missed (i := i) (by simp [state]) nofun
      · exact missed
    · exact pending
  · exact k.updCounters h i _

theorem deliverTriggers (h : I s) (ids : List SlotId) : I (s.deliverTriggers ids) := by
  have due : I (s.makeDue (ids.filter fun i => (s.slot i).state == .armed)) :=
    k.same _ _ (.makeDue fun i hi => by simp [beq_iff_eq.mp (List.mem_filter.mp hi).2]) h
  have taken : ∀ (l : List SlotId) (t : State), I t → I (l.foldl (fun s i => s.takeTrigger i) t) := fun l t ht =>
    foldl (I := I) (fun _ i h => k.takeTrigger h i) l ht
  exact k.countFree (taken _ _ (taken _ _ due))

theorem completeSweep (h : I s) (i : SlotId) : I (s.completeSweep i) := by
  have counted := k.updCounters h i Counters.completeSweep
  have due : ∀ t : State, I t → (t.slot i).state = .running → I (t.makeDue [i]) := fun t ht running =>
    k.same _ _ (.makeDue (by simp [running])) ht
  unfold State.completeSweep
  split
  · next running =>
    have state : ((s.updCounters i Counters.completeSweep).slot i).state = .running :=
      (congrArg Slot.state (State.slot_updSlot_self s i _)).trans running
    dsimp only
    split
    · exact k.endPosting counted _ _
    · split
      · exact due _ (k.same _ _ (.updSlot_same _ i rfl rfl) counted)
          ((congrArg Slot.state (State.slot_updSlot_self _ i _)).trans state)
      · split
        · exact due _ counted state
        · exact k.become counted (by simp [state]) nofun
  · exact k.endPosting counted _ _
  all_goals exact h

theorem cutSweep (h : I s) (i : SlotId) : I (s.cutSweep i) := by
  unfold State.cutSweep
  split
  · exact k.endPosting h _ _
  all_goals exact h

theorem takeReport (h : I s) (r : Option Report) : I (s.takeReport r) := by
  unfold State.takeReport
  split
  · exact h
  · split
    · exact k.completeSweep h _
    · exact k.cutSweep h _

theorem handReport (h : I s) (r : Option Report) : I (s.handReport r) := by
  unfold State.handReport
  split
  · exact h
  · split
    · exact k.waiting h _ _
    · exact k.cutSweep h _

theorem takeFirstReport (h : I s) : I s.takeFirstReport := by
  unfold State.takeFirstReport
  split
  · exact h
  · next rest _ =>
    exact k.completeSweep (k.waiting h s.seq.cuts rest) _

theorem takeReports (h : I s) (which : SlotId → Bool) : I (s.takeReports which) := by
  unfold State.takeReports
  exact foldl (I := I) (fun _ i h => k.completeSweep h i) _ (k.waiting h _ _)

theorem takeReportsWhen (h : I s) (w : ReportTaking) : I (s.takeReportsWhen w) := by
  cases w
  · exact k.takeReports h _
  · exact h

theorem takeCancel (h : I s) (i : SlotId) (m : CancelMode) : I (s.takeCancel i m).1 := by
  have drains : ∀ d : Drain, (s.slot i).state ≠ .idle → I (s.updSlot i fun x => { x with state := .draining d }) :=
    fun _ active => k.become h active nofun
  unfold State.takeCancel
  split
  · exact h
  · exact k.endPosting h _ _
  · exact k.endPosting h _ _
  · exact k.endPosting h _ _
  · next running => exact drains _ (by simp [running])
  · next running => exact k.waiting (drains _ (by simp [running])) _ _
  · next draining => exact k.waiting (drains _ (by simp [draining])) _ _
  · exact h
  · exact h

theorem cancel (h : I s) (p : Port) : I (s.cancel p).1 := by
  unfold State.cancel
  split
  · exact h
  · split
    · exact h
    · exact k.takeCancel h _ _

theorem endPortPostings (h : I s) (p : Port) : I (s.endPortPostings p) := by
  unfold State.endPortPostings
  exact foldl (I := I) (fun _ i h => k.endPosting h i none) _ h

/-- Before the pipeline, a CLOSE takes reports and ends postings. -/
theorem settled (h : I s) (p : Port) : I (s.settled p) := k.endPortPostings (k.takeReports h _) p

theorem ackQueue (h : I s) (p : Port) : I (s.ackQueue p).1 := by
  unfold State.ackQueue
  split
  · exact h
  · dsimp only
    split
    · exact k.same _ _ (.returnStalled _ p _) (k.updPort h p _)
    · exact h

end KeptByRequests

/-- Work on the requests leaves the conversion chain. -/
theorem keptByRequests_chain (q : Sequencer) : KeptByRequests fun s => q.ChainSame s.seq where
  same _ _ e h := h.trans e.chain
  ended s i _ h := by
    obtain ⟨ts, e⟩ := (s.updSlot i Slot.ended).dropTimerRef_eq (s.slot i).fields
    unfold State.requestEnded
    rw [e]
    exact h

end Sys2Proof.Machine
end

section
/-! SUPPORT. The conversion chain (R58, R63, R69-R73): the shapes of the sequencer, and that every step keeps them. -/
namespace Sys2Proof.Machine

/-! ### The shapes -/

/-- The sequencer in one of the manual's shapes: what `State.ChainHolds` says of it, clause by clause. -/
structure Sequencer.InShape (q : Sequencer) : Prop where
  one : q.converting = none ∨ q.buffer = none
  timeout : q.doneTimeout.isSome = q.converting.isSome
  filled : q.link = .ready → q.converting = none → q.buffer ≠ none
  idle : q.link = .ready → q.selected = none → q.converting = none → ∃ t, q.buffer = some ⟨.stale, t⟩
  faulted : q.link = .faulted → q.selected = none ∧ q.converting = none ∧ q.buffer = none ∧ q.active = none
  restarting : q.link = .restarting → q.selected = none ∧ q.buffer = none ∧ q.active = none ∧
    ∃ c t, q.converting = some ⟨.dummy c, t⟩

theorem State.chainHolds_iff (s : State) : s.ChainHolds ↔ s.seq.InShape :=
  ⟨fun ⟨one, timeout, filled, idle, faulted, restarting⟩ => ⟨one, timeout, filled, idle, faulted, restarting⟩,
    fun h => ⟨h.one, h.timeout, h.filled, h.idle, h.faulted, h.restarting⟩⟩

/-- The shape of a READY sequencer from which a record may just have been removed: the pipeline need not be idle yet. -/
structure Sequencer.Serves (q : Sequencer) : Prop where
  ready : q.link = .ready
  one : q.converting = none ∨ q.buffer = none
  timeout : q.doneTimeout.isSome = q.converting.isSome
  filled : q.converting = none → q.buffer ≠ none

namespace Sequencer.Serves
variable {q r : Sequencer}

theorem inShape (h : q.Serves)
    (idle : q.selected = none → q.converting = none → ∃ t, q.buffer = some ⟨.stale, t⟩) : q.InShape where
  one := h.one
  timeout := h.timeout
  filled _ := h.filled
  idle _ := idle
  faulted link := nomatch h.ready.symm.trans link
  restarting link := nomatch h.ready.symm.trans link

theorem of_chainSame (h : q.Serves) (same : q.ChainSame r) : r.Serves := by
  obtain ⟨cuts, reports, rfl⟩ := same
  exact ⟨h.ready, h.one, h.timeout, h.filled⟩

/-- Beside a converting record nothing is asked of the register. -/
theorem of_converting {b : StartedRecord} (ready : q.link = .ready) (converting : q.converting = some b)
    (buffer : q.buffer = none) (timeout : q.doneTimeout.isSome = true) : q.Serves where
  ready := ready
  one := .inr buffer
  timeout := by rw [timeout, converting]; rfl
  filled resting := nomatch converting.symm.trans resting

theorem inShape_of_converting {b : StartedRecord} (ready : q.link = .ready) (converting : q.converting = some b)
    (buffer : q.buffer = none) (timeout : q.doneTimeout.isSome = true) : q.InShape :=
  (of_converting ready converting buffer timeout).inShape fun _ resting => nomatch converting.symm.trans resting

end Sequencer.Serves

namespace Sequencer.InShape
variable {q r : Sequencer}

theorem of_chainSame (h : q.InShape) (same : q.ChainSame r) : r.InShape := by
  obtain ⟨cuts, reports, rfl⟩ := same
  exact ⟨h.one, h.timeout, h.filled, h.idle, h.faulted, h.restarting⟩

theorem serves (h : q.InShape) (ready : q.link = .ready) : q.Serves := ⟨ready, h.one, h.timeout, h.filled ready⟩

/-- Only a READY sequencer has a selected record (R70, R72). -/
theorem ready_of_selected (h : q.InShape) {x : SweepRecord} (selected : q.selected = some x) : q.link = .ready := by
  cases link : q.link with
  | ready => rfl
  | faulted => exact nomatch selected.symm.trans (h.faulted link).1
  | restarting => exact nomatch selected.symm.trans (h.restarting link).1

/-- The register of a READY sequencer is filled. -/
theorem withSelected (h : q.InShape) (ready : q.link = .ready) {x : Option SweepRecord} {c : Option Channel} {n : Nat}
    {a : Option ActiveSweep} (filled : x ≠ none) :
    ({ q with selected := x, selectedChannel := c, settledTime := n, active := a } : Sequencer).InShape :=
  Sequencer.Serves.inShape ⟨ready, h.one, h.timeout, h.filled ready⟩ fun none => absurd none filled

/-- The converting or buffer record of a closing port keeps its place (R68). -/
theorem staleIfOwned_stale (p : Port) (t : DWord) : staleIfOwned p (some ⟨.stale, t⟩) = some ⟨.stale, t⟩ := rfl

theorem retag_serves (h : q.Serves) (p : Port) : (q.retag p).Serves where
  ready := h.ready
  one := h.one.imp (staleIfOwned_eq_none_iff p _).mpr (staleIfOwned_eq_none_iff p _).mpr
  timeout := h.timeout.trans (Option.isSome_map (x := q.converting)).symm
  filled resting := fun empty => h.filled ((staleIfOwned_eq_none_iff p _).mp resting) ((staleIfOwned_eq_none_iff p _).mp empty)

/-- The retagging of a port that has no selected record leaves the shape (R68). -/
theorem retag (h : q.InShape) {p : Port} (other : q.selected.filter (fun r => slotOwner r.slot != p) = q.selected) :
    (q.retag p).InShape where
  one := h.one.imp (staleIfOwned_eq_none_iff p _).mpr (staleIfOwned_eq_none_iff p _).mpr
  timeout := h.timeout.trans (Option.isSome_map (x := q.converting)).symm
  filled link resting := fun empty =>
    h.filled link ((staleIfOwned_eq_none_iff p _).mp resting) ((staleIfOwned_eq_none_iff p _).mp empty)
  idle link selected resting := by
    obtain ⟨t, stale⟩ := h.idle link (other.symm.trans selected) ((staleIfOwned_eq_none_iff p _).mp resting)
    exact ⟨t, congrArg (staleIfOwned p) stale⟩
  faulted link := by
    obtain ⟨selected, converting, buffer, active⟩ := h.faulted link
    exact ⟨other.trans selected, congrArg (staleIfOwned p) converting, congrArg (staleIfOwned p) buffer,
      congrArg (Option.filter _) active⟩
  restarting link := by
    obtain ⟨selected, buffer, active, c, t, converting⟩ := h.restarting link
    exact ⟨other.trans selected, congrArg (staleIfOwned p) buffer, congrArg (Option.filter _) active, c, t,
      congrArg (staleIfOwned p) converting⟩

end Sequencer.InShape

/-! ### The pipeline -/

section
variable {s : State}

/-- Work on the requests keeps the shape. -/
theorem keptByRequests_inShape : KeptByRequests fun s => s.seq.InShape where
  same _ _ e h := h.of_chainSame e.chain
  ended s i active h := h.of_chainSame ((keptByRequests_chain s.seq).ended s i active (.refl _))

theorem keptByRequests_serves : KeptByRequests fun s => s.seq.Serves where
  same _ _ e h := h.of_chainSame e.chain
  ended s i active h := h.of_chainSame ((keptByRequests_chain s.seq).ended s i active (.refl _))

theorem State.link_readout (s : State) (c : Option Port) : (s.readout c).1.seq.link = s.seq.link := by
  rw [s.seq_readout]

theorem State.buffer_readout (s : State) (c : Option Port) : (s.readout c).1.seq.buffer = none := by
  rw [s.seq_readout]

/-- A FLUSH converts beside an empty buffer (R63). -/
theorem State.inShape_flush (h : s.seq.Serves) (c : Option Port) : (s.flush c).seq.InShape := by
  unfold State.flush
  refine keptByRequests_inShape.handReport ?_ _
  exact Sequencer.Serves.inShape_of_converting ((s.link_readout c).trans h.ready) rfl (s.buffer_readout c) rfl

/-- With nothing converting, a flush or an idle pipeline has its shape (R63). -/
theorem State.inShape_flushOrIdle (h : s.seq.Serves) (resting : s.seq.converting = none) (c : Option Port) :
    (s.flushOrIdle c).seq.InShape := by
  unfold State.flushOrIdle
  split
  · exact s.inShape_flush h c
  · obtain ⟨b, buffer⟩ := Option.ne_none_iff_exists'.mp (h.filled resting)
    have stale : ({ s.seq with buffer := some { b with tag := .stale } } : Sequencer).InShape :=
      Sequencer.Serves.inShape ⟨h.ready, .inl resting, h.timeout, fun _ => nofun⟩ fun _ _ => ⟨b.startTime, rfl⟩
    simpa [State.updSeq, buffer] using stale

theorem State.inShape_afterRemoval (h : s.seq.Serves) (c : Option Port) : (s.afterRemoval c).seq.InShape := by
  unfold State.afterRemoval
  split
  · next both =>
    exact s.inShape_flushOrIdle h (Option.isNone_iff_eq_none.mp ((Bool.and_eq_true _ _).mp both).2) c
  · next busy =>
    refine h.inShape fun selected converting => absurd ?_ busy
    rw [selected, converting]
    rfl

/-- A cut that removes the selected record finds a READY link. -/
theorem Sequencer.InShape.ready_of_cutRemoves {q : Sequencer} (h : q.InShape) {i : SlotId} {e : Option Nat}
    (removes : q.cutRemoves i e = true) : q.link = .ready := by
  unfold Sequencer.cutRemoves at removes
  cases selected : q.selected with
  | none => simp [selected] at removes
  | some x => exact h.ready_of_selected selected

theorem Sequencer.Serves.dropSelected {q : Sequencer} (h : q.Serves) : q.dropSelected.Serves :=
  ⟨h.ready, h.one, h.timeout, h.filled⟩

theorem State.inShape_cutUnstarted (h : s.seq.Serves) (i : SlotId) : (s.cutUnstarted i).seq.InShape := by
  have k := keptByRequests_inShape
  have dropped : (s.updSeq Sequencer.dropSelected).seq.Serves := h.dropSelected
  unfold State.cutUnstarted
  dsimp only
  split
  · refine k.countFree (k.countFree (k.takeReport ?_ _))
    split
    · exact k.takeReports (State.inShape_afterRemoval dropped none) _
    · exact State.inShape_afterRemoval dropped none
  · exact k.countFree (k.countFree (State.inShape_afterRemoval (keptByRequests_serves.takeReport dropped _) none))

theorem State.inShape_cutAfter (h : s.seq.InShape) (i : SlotId) (e : Nat) : (s.cutAfter i e).seq.InShape := by
  unfold State.cutAfter
  dsimp only
  split
  · next removes => exact State.inShape_afterRemoval (h.serves (h.ready_of_cutRemoves removes)).dropSelected none
  · exact h

theorem State.inShape_cut (h : s.seq.InShape) (i : SlotId) : (s.cut i).seq.InShape := by
  have forgot : (s.forgetCut i).seq.InShape := keptByRequests_inShape.waiting h _ _
  unfold State.cut State.takeCut
  dsimp only
  split
  · split
    · split
      · next removes => exact State.inShape_cutUnstarted (forgot.serves (forgot.ready_of_cutRemoves removes)) i
      · exact forgot
    · split
      · exact forgot
      · exact State.inShape_cutAfter forgot i _
  · exact h

/-- The refill of a READY sequencer's register beside a converting record (R61). -/
theorem State.inShape_refill {b : StartedRecord} (ready : s.seq.link = .ready) (converting : s.seq.converting = some b)
    (buffer : s.seq.buffer = none) (timeout : s.seq.doneTimeout.isSome = true) (r : SweepRecord) :
    (s.refill r).seq.InShape := by
  unfold State.refill
  split
  · refine Sequencer.Serves.inShape_of_converting (b := b) ?_ ?_ ?_ ?_
    all_goals
      rw [State.seq_updSeq]
      unfold Sequencer.select
      dsimp only
      split <;> assumption
  · exact Sequencer.Serves.inShape_of_converting ready converting buffer timeout

theorem State.inShape_startSelected (ready : s.seq.link = .ready) (r : SweepRecord) : (s.startSelected r).seq.InShape := by
  have link := (s.link_readout none).trans ready
  have buffer := s.buffer_readout none
  unfold State.startSelected
  dsimp only
  refine keptByRequests_inShape.handReport ?_ _
  split
  · refine State.inShape_refill (b := ⟨.sweep r, (s.readout none).1.timestamp⟩) ?_ rfl ?_ rfl r
    · exact link
    · exact buffer
  · exact Sequencer.Serves.inShape_of_converting link rfl buffer rfl

theorem State.inShape_startConversion (h : s.seq.InShape) (w : ReportTaking) : (s.startConversion w).seq.InShape := by
  unfold State.startConversion
  split
  · split
    · next selected =>
      exact keptByRequests_inShape.takeReportsWhen (State.inShape_startSelected (h.ready_of_selected selected) _) w
    · exact h
  · exact h

/-- The end of a conversion leaves a READY link with the record in the buffer (R57, R73). -/
theorem State.inShape_endConversion (h : s.seq.InShape) {b : StartedRecord} (converting : s.seq.converting = some b)
    (raw : Word) : (s.endConversion raw).seq.InShape := by
  have ended : ∀ t : State, t.seq.link = .ready → t.seq.converting = some b → (let u := t.updSeq fun q =>
      { q with buffer := q.converting, converting := none, doneTimeout := none, converterCode := raw }
      if u.seq.selected.isNone then u.flushOrIdle none else u).seq.InShape := by
    intro t ready converting
    have serves : (t.updSeq fun q =>
        { q with buffer := q.converting, converting := none, doneTimeout := none, converterCode := raw }).seq.Serves :=
      ⟨ready, .inl rfl, rfl, fun _ empty => nomatch converting.symm.trans empty⟩
    dsimp only
    split
    · exact State.inShape_flushOrIdle serves rfl none
    · next filled => exact serves.inShape fun selected _ => absurd (by rw [selected]; rfl) filled
  refine ended _ ?_ ?_
  · split
    · rfl
    · next other =>
      cases link : s.seq.link with
      | ready => rfl
      | faulted => exact nomatch converting.symm.trans (h.faulted link).2.1
      | restarting => exact absurd link other
  · split <;> exact converting

theorem State.inShape_converterDone (h : s.seq.InShape) (raw : Word) (w : ReportTaking) :
    (s.converterDone raw w).seq.InShape := by
  unfold State.converterDone
  split
  · next some =>
    obtain ⟨b, converting⟩ := Option.isSome_iff_exists.mp some
    exact keptByRequests_inShape.takeReportsWhen (s.inShape_endConversion h converting raw) w
  · exact h

/-- A fault and a failed restart leave no record (R70, R73). -/
theorem State.inShape_doneTimeout (h : s.seq.InShape) : s.doneTimeout.seq.InShape := by
  unfold State.doneTimeout
  split
  · split
    · refine KeptByRequests.foldl (I := fun s => s.seq.InShape) (fun _ i h => keptByRequests_inShape.endPosting h i _) _ ?_
      exact ⟨.inl rfl, rfl, nofun, nofun, fun _ => ⟨rfl, rfl, rfl, rfl⟩, nofun⟩
    · next link =>
      obtain ⟨selected, buffer, active, -⟩ := h.restarting link
      exact ⟨.inl rfl, rfl, nofun, nofun, fun _ => ⟨selected, rfl, buffer, active⟩, nofun⟩
    · exact h
  · exact h

/-- A restart converts the DUMMY alone (R72). -/
theorem State.inShape_restartConverter (h : s.seq.InShape) : s.restartConverter.1.seq.InShape := by
  unfold State.restartConverter
  split
  · next link =>
    obtain ⟨selected, -, -, active⟩ := h.faulted link
    exact ⟨.inr rfl, rfl, nofun, nofun, nofun, fun _ => ⟨selected, rfl, active, _, _, rfl⟩⟩
  · exact h
  · exact h

/-- A grant fills the register of a READY sequencer (R44, R50). -/
theorem State.inShape_grant (h : s.seq.InShape) : s.grant.seq.InShape := by
  by_cases due : s.grantDue = true
  · have ready : s.seq.link = .ready := by
      unfold State.grantDue at due
      simp only [Bool.and_eq_true, beq_iff_eq] at due
      exact due.1.2
    obtain ⟨t, ⟨-, stalled⟩, e⟩ | ⟨t, i, made, e⟩ := State.grant_cases due
    · rw [e, stalled.seq]
      exact h
    · rw [e, t.seq_grantTo i made.due, made.stalled.seq]
      unfold Sequencer.select
      dsimp only
      split
      · exact h.withSelected ready nofun
      · exact h.withSelected ready nofun
  · unfold State.grant
    rw [if_neg due]
    exact h

/-- A CLOSE leaves the pipeline by way of READY if it removes the selected record (R68). -/
theorem State.inShape_leavePipeline (h : s.seq.InShape) (p : Port) : (s.leavePipeline p).seq.InShape := by
  unfold State.leavePipeline
  dsimp only
  refine keptByRequests_inShape.countFree ?_
  by_cases removed : s.SelectedOf p
  · obtain ⟨r, selected, -⟩ := id removed
    rw [if_pos ((s.selectedOf_iff p).mpr removed)]
    exact State.inShape_afterRemoval (Sequencer.InShape.retag_serves (h.serves (h.ready_of_selected selected)) p) _
  · rw [if_neg fun any => removed ((s.selectedOf_iff p).mp any)]
    refine h.retag ?_
    cases selected : s.seq.selected with
    | none => rfl
    | some r =>
      have other : slotOwner r.slot ≠ p := fun own => removed ⟨r, selected, own⟩
      simp [other]

theorem State.inShape_closeEffects (h : s.seq.InShape) (p : Port) : (s.closeEffects p).seq.InShape := by
  obtain ⟨ts, c, k, e⟩ := s.closeEffects_eq_leaving p
  rw [e]
  exact State.inShape_leavePipeline (keptByRequests_inShape.settled h p) p

/-! ### Steps -/

theorem State.inShape_post (h : s.seq.InShape) (p : Port) : (s.post p).1.seq.InShape := by
  unfold State.post
  split
  · exact h
  · next i _ =>
    dsimp only
    split
    · refine Sequencer.InShape.of_chainSame ?_ (State.RequestsSame.takePost s i).chain
      unfold State.addTimerRef
      split <;> exact h
    · exact h

theorem State.inShape_passMicrosecond (h : s.seq.InShape) : s.passMicrosecond.seq.InShape := by
  cases lasts : s.inReset with
  | true =>
    rw [State.passMicrosecond_inReset lasts]
    exact h
  | false =>
    obtain ⟨ts, ps, e, -⟩ := s.passMicrosecond_eq lasts
    rw [e]
    exact h

/-- Work that leaves the sequencer. -/
theorem Sequencer.InShape.of_eq {t : State} (h : s.seq.InShape) (seq : t.seq = s.seq) : t.seq.InShape := seq ▸ h

theorem State.seq_portReset (s : State) (p : Port) :
    (s.portReset p).seq = if (s.port p).mode = .opened then (s.closeEffects p).seq else s.seq := by
  obtain ⟨v, e, -⟩ := s.portReset_eq p
  rw [e]
  exact apply_ite State.seq _ _ _

theorem State.inShape_portReset (h : s.seq.InShape) (p : Port) : (s.portReset p).seq.InShape := by
  rw [s.seq_portReset]
  split
  · exact s.inShape_closeEffects h p
  · exact h

end

/-- Every kind of work keeps the shape. -/
theorem Sequencer.InShape.keptBySteps : KeptBySteps fun s => s.seq.InShape where
  words _ _ e h := h.of_eq e.seq
  lineLow _ _ _ h := h
  slotFields _ _ _ _ h := h
  configuration _ _ _ _ _ h := h
  openPort s p h := h.of_chainSame (State.RequestsSame.openPort s p).chain
  closeEffects s p _ h := s.inShape_closeEffects h p
  portReset s p h := s.inShape_portReset h p
  resetAll _ _ _ := State.reset.chainHolds_iff.mp State.chainHolds_reset
  post s p _ h := s.inShape_post h p
  cancel _ p h := keptByRequests_inShape.cancel h p
  deliverTriggers _ _ h := keptByRequests_inShape.deliverTriggers h _
  trigger _ _ _ h := keptByRequests_inShape.deliverTriggers h _
  ackQueue _ p h := keptByRequests_inShape.ackQueue h p
  releaseSlots _ _ h := h
  popCompletion s p h := h.of_chainSame (State.RequestsSame.popCompletion s p).chain
  claimTimer _ _ _ _ h := h
  setTimer _ _ _ _ h := h
  startTimer _ _ _ _ h := h
  stopTimer _ _ _ _ h := h
  releaseTimer _ _ h := h
  line _ _ _ h := h
  renew _ h := h
  takeLease s p _ h := h.of_chainSame (State.RequestsSame.takeLease s p).chain
  endLease s h := h.of_chainSame (State.RequestsSame.dropLease s).chain
  leaseExpiry s h := h.of_chainSame (State.RequestsSame.leaseExpiry s).chain
  setProvisional _ _ _ _ _ h := h
  dropProvisional _ _ h := h
  commitPending _ _ _ h := h
  fillCommit _ _ _ _ h := h
  store _ _ h := h
  restartConverter s h := s.inShape_restartConverter h
  timerUnit _ _ h := h
  timerLoad _ _ _ h := h
  grant s h := s.inShape_grant h
  startConversion s w h := s.inShape_startConversion h w
  converterDone s raw w h := s.inShape_converterDone h raw w
  takeFirstReport _ h := keptByRequests_inShape.takeFirstReport h
  doneTimeout s h := s.inShape_doneTimeout h
  cut s i h := s.inShape_cut h i
  microsecond s h := s.inShape_passMicrosecond h
  timeoutTick _ _ h := h
  timeoutExpiry _ _ h := h
  takeWriteReport s b h := h.of_chainSame (State.RequestsSame.takeWriteReport s b).chain
  installRecords _ _ h := h
  emptyCommit _ h := h

/-- Settles O59: every kind of work keeps the sequencer in its shapes, so every step does. -/
theorem stepKeepsChain : Obligations.StepKeepsChain := fun s t h e =>
  t.chainHolds_iff.mpr (Sequencer.InShape.keptBySteps.step s t (s.chainHolds_iff.mp h) e)

end Sys2Proof.Machine
end

section
/-! SUPPORT. Timer references (R30): a timer counts the requests that name it. An ending drops the reference of its request, a
POST takes one, and no other work changes the requests or the references; so every step keeps the counts exact. -/
namespace Sys2Proof.Machine

/-! ### Work on requests and pipeline -/

/-- What is asked of a property of states that work on requests and pipeline keeps: the conversion chain does not enter it. -/
structure KeptByPipeline (I : State → Prop) : Prop extends KeptByRequests I where
  chain : ∀ s q, I s → I { s with seq := q }

namespace KeptByPipeline
variable {I : State → Prop} (k : KeptByPipeline I) {s : State}
include k

theorem updSeq (h : I s) (f : Sequencer → Sequencer) : I (s.updSeq f) := k.chain s _ h

theorem readout (h : I s) (c : Option Port) : I (s.readout c).1 := by
  have read : ∀ (t : State) (r : SweepRecord) (start : DWord), I t → I (t.readSweep c r start).1 := by
    intro t r start ht
    unfold State.readSweep
    split
    · exact ht
    · split
      · exact k.same _ _ (.deliver _ _ _) (k.updSeq ht _)
      · exact k.chain t _ ht
  unfold State.readout
  dsimp only
  split
  · exact read _ _ _ (k.updSeq h _)
  all_goals exact k.chain s _ h

theorem startSelected (h : I s) (r : SweepRecord) : I (s.startSelected r) := by
  have started : I (((s.readout none).1.updSeq fun q => { q with selected := none }).beginConversion (.sweep r)) :=
    k.updSeq (k.updSeq (k.readout h none) _) _
  unfold State.startSelected
  dsimp only
  refine k.handReport ?_ _
  split
  · unfold State.refill
    split <;> exact k.updSeq started _
  · exact started

theorem flushOrIdle (h : I s) (c : Option Port) : I (s.flushOrIdle c) := by
  unfold State.flushOrIdle
  split
  · exact k.handReport (k.updSeq (k.readout h c) _) _
  · exact k.updSeq h _

theorem afterRemoval (h : I s) (c : Option Port) : I (s.afterRemoval c) := by
  unfold State.afterRemoval
  split
  · exact k.flushOrIdle h c
  · exact h

theorem cutUnstarted (h : I s) (i : SlotId) : I (s.cutUnstarted i) := by
  have dropped := k.updSeq h Sequencer.dropSelected
  unfold State.cutUnstarted
  dsimp only
  split
  · refine k.countFree (k.countFree (k.takeReport ?_ _))
    split
    · exact k.takeReports (k.afterRemoval dropped none) _
    · exact k.afterRemoval dropped none
  · exact k.countFree (k.countFree (k.afterRemoval (k.takeReport dropped _) none))

theorem cut (h : I s) (i : SlotId) : I (s.cut i) := by
  have forgot : I (s.forgetCut i) := k.chain s _ h
  have truncated : ∀ e, I ((s.forgetCut i).updSlot i fun x => { x with truncatedAt := some e }) := fun e =>
    k.same _ _ (.updSlot_same _ i rfl rfl) forgot
  unfold State.cut State.takeCut
  dsimp only
  split
  · split
    · split
      · exact k.cutUnstarted forgot i
      · exact forgot
    · split
      · exact forgot
      · unfold State.cutAfter
        dsimp only
        split
        · exact k.afterRemoval (k.updSeq (truncated _) _) none
        · exact truncated _
  · exact h

theorem startConversion (h : I s) (w : ReportTaking) : I (s.startConversion w) := by
  unfold State.startConversion
  split
  · split
    · exact k.takeReportsWhen (k.startSelected h _) w
    · exact h
  · exact h

theorem converterDone (h : I s) (raw : Word) (w : ReportTaking) : I (s.converterDone raw w) := by
  have ended : ∀ t : State, I t → I (let u := t.updSeq fun q =>
      { q with buffer := q.converting, converting := none, doneTimeout := none, converterCode := raw }
      if u.seq.selected.isNone then u.flushOrIdle none else u) := by
    intro t ht
    dsimp only
    split
    · exact k.flushOrIdle (k.updSeq ht _) none
    · exact k.updSeq ht _
  unfold State.converterDone State.endConversion
  split
  · refine k.takeReportsWhen (ended _ ?_) w
    split
    · exact k.raiseAll (k.updSeq h _) _
    · exact h
  · exact h

theorem doneTimeout (h : I s) : I s.doneTimeout := by
  unfold State.doneTimeout
  split
  · split
    · exact KeptByRequests.foldl (I := I) (fun _ i h => k.endPosting h i _) _ (k.raiseAll (k.updSeq h _) _)
    · exact k.raiseAll (k.updSeq h _) _
    · exact h
  · exact h

theorem restartConverter (h : I s) : I s.restartConverter.1 := by
  unfold State.restartConverter
  split
  · exact k.chain s _ h
  · exact h
  · exact h

/-- The part of a CLOSE before the port's timers are released. -/
theorem leaving (h : I s) (p : Port) : I (s.leaving p) := by
  have settled := k.settled h p
  rw [s.leaving_eq]
  unfold State.leavePipeline
  dsimp only
  refine k.countFree ?_
  split
  · exact k.afterRemoval (k.updSeq settled _) _
  · exact k.updSeq settled _

end KeptByPipeline

/-! ### The count of one timer -/

/-- The timer has `n` references; FREE it has none and its count is 0, orphaned it has some (R30). -/
structure Timer.Counts (n : Nat) (t : Timer) : Prop where
  refs : t.refs = n
  free : t.state = .free → t.refs = 0 ∧ t.count = 0
  orphan : t.state = .orphanedRunning ∨ t.state = .orphanedStopped → 0 < t.refs

namespace Timer.Counts
variable {n : Nat} {t u : Timer}

/-- An owned timer is asked for its references alone. -/
theorem of_owned {p : Port} (refs : t.refs = n) (state : t.state = .held p ∨ t.state = .running p) : t.Counts n where
  refs := refs
  free isFree := by simp [isFree] at state
  orphan isOrphan := by obtain e | e := state <;> simp [e] at isOrphan

theorem of_same (h : t.Counts n) (refs : u.refs = t.refs) (state : u.state = t.state)
    (count : t.state = .free → u.count = t.count) : u.Counts n where
  refs := refs.trans h.refs
  free isFree := by
    have was := state.symm.trans isFree
    rw [refs, count was]
    exact h.free was
  orphan isOrphan := by
    rw [state] at isOrphan
    exact refs ▸ h.orphan isOrphan

/-- A reference is dropped: with the last one, an orphan becomes FREE (R30). -/
theorem dropRef (h : t.Counts (n + 1)) : t.dropRef.Counts n := by
  have refs : t.refs - 1 = n := by rw [h.refs]; rfl
  have taken : t.state ≠ .free := fun isFree => by
    have := h.refs.symm.trans (h.free isFree).1
    omega
  rw [t.dropRef_eq]
  split
  · next last => exact ⟨last.1.symm.trans refs, fun _ => ⟨rfl, rfl⟩, nofun⟩
  · next others =>
    refine ⟨refs, fun isFree => absurd isFree taken, fun isOrphan => ?_⟩
    exact Nat.pos_of_ne_zero fun none => others ⟨none, isOrphan⟩

/-- A POST takes a reference of a timer that is not FREE (R6 check 5, R9). -/
theorem addRef (h : t.Counts n) (taken : t.state ≠ .free) : t.addRef.Counts (n + 1) :=
  ⟨congrArg (· + 1) h.refs, fun isFree => absurd isFree taken, fun _ => Nat.succ_pos _⟩

theorem claim (h : t.Counts n) (p : Port) : (t.claim p).1.Counts n := by
  unfold Timer.claim
  split
  · exact of_owned h.refs (.inl rfl)
  · exact of_owned h.refs (.inl rfl)
  · exact of_owned h.refs (.inr rfl)
  all_goals exact h

theorem start (h : t.Counts n) (p : Port) : (t.start p).1.Counts n := by
  unfold Timer.start
  split
  · exact of_owned h.refs (.inr rfl)
  · exact h

theorem stop (h : t.Counts n) (p : Port) : (t.stop p).1.Counts n := by
  unfold Timer.stop
  split
  · exact of_owned h.refs (.inl rfl)
  · exact h

/-- An owned timer that is given up is FREE without references, else an orphan with some (R35). -/
theorem release (h : t.Counts n) : t.release.Counts n := by
  unfold Timer.release
  split
  · split
    · next none => exact ⟨h.refs, fun _ => ⟨none, rfl⟩, nofun⟩
    · next some => exact ⟨h.refs, nofun, fun _ => Nat.pos_of_ne_zero some⟩
  · split
    · next none => exact ⟨h.refs, fun _ => ⟨none, rfl⟩, nofun⟩
    · next some => exact ⟨h.refs, nofun, fun _ => Nat.pos_of_ne_zero some⟩
  all_goals exact h

theorem free_not_counting (counting : t.state.counting = true) : t.state ≠ .free := fun isFree => by
  rw [isFree] at counting
  cases counting

theorem unit (h : t.Counts n) : t.unit.Counts n := by
  unfold Timer.unit
  split
  · next due =>
    simp only [Timer.unitDue, Bool.and_eq_true] at due
    exact h.of_same rfl rfl fun isFree => absurd isFree (free_not_counting due.1.1)
  · exact h

theorem tick (h : t.Counts n) : t.tick.Counts n := by
  unfold Timer.tick
  split
  · exact h.of_same rfl rfl fun _ => rfl
  · exact h

end Timer.Counts

/-! ### The requests that name a timer -/

theorem State.mem_namingTimer {s : State} {n : Fin 4} {i : SlotId} :
    i ∈ s.namingTimer n ↔ (s.slot i).state ≠ .idle ∧ (s.slot i).fields.source.toNat = n.val + 1 := by
  simp [State.namingTimer, mem_allSlots]

theorem State.nodup_namingTimer (s : State) (n : Fin 4) : (s.namingTimer n).Nodup := nodup_allSlots.filter _

theorem State.namingTimer_congr {s t : State} (idle : ∀ i, (t.slot i).state = .idle ↔ (s.slot i).state = .idle)
    (fields : ∀ i, (s.slot i).state ≠ .idle → (t.slot i).fields = (s.slot i).fields) (n : Fin 4) :
    t.namingTimer n = s.namingTimer n := by
  refine List.filter_congr fun i _ => ?_
  rw [Bool.eq_iff_iff]
  simp only [Bool.and_eq_true, bne_iff_ne, beq_iff_eq, ne_eq, idle i]
  exact and_congr_right fun active => by rw [fields i active]

/-- Slot `i` is IDLE in `t`, and the other slots hold the same requests: a request of slot `i` is one more in `s`. -/
theorem State.length_namingTimer {s t : State} {i : SlotId} (gone : (t.slot i).state = .idle)
    (fields : ∀ j, j ≠ i → (t.slot j).fields = (s.slot j).fields)
    (idle : ∀ j, j ≠ i → ((t.slot j).state = .idle ↔ (s.slot j).state = .idle)) (n : Fin 4) :
    (s.namingTimer n).length = (t.namingTimer n).length + if i ∈ s.namingTimer n then 1 else 0 := by
  have without : t.namingTimer n = (s.namingTimer n).erase i := by
    rw [(s.nodup_namingTimer n).erase_eq_filter]
    unfold State.namingTimer
    rw [List.filter_filter]
    refine List.filter_congr fun j _ => ?_
    by_cases at_i : j = i
    · simp [at_i, gone]
    · have same : ((t.slot j).state != .idle) = ((s.slot j).state != .idle) := by
        rw [Bool.eq_iff_iff, bne_iff_ne, bne_iff_ne]
        exact not_congr (idle j at_i)
      simp [at_i, fields j at_i, same]
  rw [without]
  split
  · next named =>
    rw [List.length_erase_of_mem named, Nat.sub_add_cancel]
    exact List.length_pos_of_mem named
  · next other => rw [List.erase_of_not_mem other, Nat.add_zero]

/-! ### The counts of the part -/

/-- A POST that is answered OK has passed the trigger check (R6 check 5). -/
theorem State.sourceUsable_of_postAnswer {s : State} {i : SlotId} (h : s.postAnswer i = .ok) :
    s.SourceUsable (s.slot i).fields := by
  classical
  rw [s.postAnswer_eq i] at h
  refine Classical.byContradiction fun unusable => ?_
  rw [if_pos unusable] at h
  (repeat' split at h) <;> cases h

/-- Each timer counts the requests that name it. -/
def State.RefsCounted (s : State) : Prop := ∀ n, (s.timer n).Counts (s.namingTimer n).length

theorem State.refsExact_iff (s : State) : s.RefsExact ↔ s.ClosedIdle ∧ s.RefsCounted :=
  and_congr_right fun _ => forall_congr' fun _ =>
    ⟨fun ⟨refs, free, orphan⟩ => ⟨refs, free, orphan⟩, fun h => ⟨h.refs, h.free, h.orphan⟩⟩

namespace State.RefsCounted
variable {s t : State}

/-- The requests are the same ones. -/
theorem of_requests (idle : ∀ i, (t.slot i).state = .idle ↔ (s.slot i).state = .idle)
    (fields : ∀ i, (s.slot i).state ≠ .idle → (t.slot i).fields = (s.slot i).fields)
    (timers : ∀ n, (t.timer n).Counts (s.namingTimer n).length) : t.RefsCounted := fun n => by
  rw [State.namingTimer_congr idle fields n]
  exact timers n

theorem of_same (h : s.RefsCounted) (e : s.RequestsSame t) : t.RefsCounted := by
  have timer : ∀ n, t.timer n = s.timer n := fun n => congrArg (tget · n) e.timers
  exact of_requests e.idle (fun i _ => e.fields i) fun n => timer n ▸ h n

/-- Work on one timer that its count survives. -/
theorem updTimer (h : s.RefsCounted) {n : Fin 4} {f : Timer → Timer}
    (counts : (f (s.timer n)).Counts (s.namingTimer n).length) : (s.updTimer n f).RefsCounted := by
  refine of_requests (fun _ => Iff.rfl) (fun _ _ => rfl) fun m => ?_
  rw [State.timer_updTimer]
  split
  · next e => exact e ▸ counts
  · exact h m

/-- An ending drops the reference of its request (R16, R30). -/
theorem requestEnded (h : s.RefsCounted) {i : SlotId} (active : (s.slot i).state ≠ .idle) :
    (s.requestEnded i).RefsCounted := fun n => by
  have slot : ∀ j, (s.requestEnded i).slot j = if j = i then (s.slot j).ended else s.slot j := fun j => by
    obtain ⟨ts, e⟩ := (s.updSlot i Slot.ended).dropTimerRef_eq (s.slot i).fields
    unfold State.requestEnded
    rw [e]
    exact State.slot_updSlot s i j _
  have gone : ((s.requestEnded i).slot i).state = .idle := by
    rw [slot, if_pos rfl]
    rfl
  have length := State.length_namingTimer (s := s) gone (fun j other => by rw [slot, if_neg other])
    (fun j other => by rw [slot, if_neg other]) n
  have counts := h n
  have timer : (s.requestEnded i).timer n =
      if (s.slot i).fields.source.toNat = n.val + 1 then (s.timer n).dropRef else s.timer n :=
    State.timer_dropTimerRef (s.updSlot i Slot.ended) (s.slot i).fields n
  by_cases named : (s.slot i).fields.source.toNat = n.val + 1
  · rw [if_pos (State.mem_namingTimer.mpr ⟨active, named⟩)] at length
    rw [length] at counts
    rw [timer, if_pos named]
    exact counts.dropRef
  · rw [if_neg fun mem => named (State.mem_namingTimer.mp mem).2] at length
    rw [length] at counts
    rw [timer, if_neg named]
    exact counts

theorem keptByPipeline : KeptByPipeline State.RefsCounted where
  same _ _ e h := h.of_same e
  ended _ _ active h := h.requestEnded active
  chain _ _ h := of_requests (fun _ => Iff.rfl) (fun _ _ => rfl) h

/-- A posting that is taken takes the reference of its timer, which is not FREE (R6 check 5, R9). -/
theorem posted (h : s.RefsCounted) {i : SlotId} (inactive : (s.slot i).state = .idle)
    (usable : s.SourceUsable (s.slot i).fields) :
    ((s.updSlot i Slot.posted).addTimerRef (s.slot i).fields).RefsCounted := fun n => by
  have slot : ∀ j, ((s.updSlot i Slot.posted).addTimerRef (s.slot i).fields).slot j =
      if j = i then (s.slot j).posted else s.slot j := fun j => by
    refine Eq.trans ?_ (State.slot_updSlot s i j Slot.posted)
    unfold State.addTimerRef
    split <;> rfl
  have length := State.length_namingTimer (s := (s.updSlot i Slot.posted).addTimerRef (s.slot i).fields) inactive
    (fun j other => by rw [slot, if_neg other]) (fun j other => by rw [slot, if_neg other]) n
  have isActive : (((s.updSlot i Slot.posted).addTimerRef (s.slot i).fields).slot i).state ≠ .idle := by
    rw [slot, if_pos rfl]
    exact nofun
  have source : (((s.updSlot i Slot.posted).addTimerRef (s.slot i).fields).slot i).fields = (s.slot i).fields := by
    rw [slot, if_pos rfl]
    rfl
  have code := congrArg (fun f : SlotFields => f.source.toNat) source
  by_cases named : (s.slot i).fields.source.toNat = n.val + 1
  · rw [if_pos (State.mem_namingTimer.mpr ⟨isActive, code.trans named⟩)] at length
    rw [length, State.addTimerRef_timer named, State.timer_updTimer_self]
    exact (h n).addRef (usable n named)
  · rw [if_neg fun mem => named (code.symm.trans (State.mem_namingTimer.mp mem).2)] at length
    have timer : ((s.updSlot i Slot.posted).addTimerRef (s.slot i).fields).timer n = s.timer n := by
      unfold State.addTimerRef
      split
      · next m e =>
        have other : n ≠ m := fun at_m => named (by rw [at_m]; exact ((s.slot i).fields.sourceOf_timer m).mp e)
        rw [State.timer_updTimer, if_neg other]
        rfl
      · rfl
    rw [timer, length]
    exact h n

theorem post (h : s.RefsCounted) (p : Port) : (s.post p).1.RefsCounted := by
  unfold State.post
  split
  · exact h
  · next i _ =>
    dsimp only
    split
    · next answer =>
      exact (h.posted (State.idle_of_postAnswer answer) (State.sourceUsable_of_postAnswer answer)).of_same
        (.takePost s i)
    · exact h

theorem releaseTimers (h : s.RefsCounted) (p : Port) : (s.releaseTimers p).RefsCounted := by
  refine List.foldlRecOn _ _ h fun t ht n _ => ?_
  split
  · exact ht.updTimer (ht n).release
  · exact ht

theorem closeEffects (h : s.RefsCounted) (p : Port) : (s.closeEffects p).RefsCounted := by
  have released := (keptByPipeline.leaving h p).releaseTimers p
  exact (released.of_same (.leaveLease _ p)).of_same (.updPort _ p _)

/-- No request names a timer in slots that are IDLE before and after (R5). -/
theorem portReset (h : s.RefsExact) (p : Port) : (s.portReset p).RefsCounted := by
  obtain ⟨idles, counted⟩ := s.refsExact_iff.mp h
  have reset : ∀ c : State, c.RefsCounted → (∀ i, slotOwner i = p → (c.slot i).state = .idle) → ∀ v : Vector Slot 24,
      (∀ i, tget v i = if slotOwner i = p then Slot.reset else c.slot i) →
      State.RefsCounted { c.updPort p PortState.clear with slots := v } := by
    intro c hc idle v slot
    refine of_requests (s := c) (fun i => ?_) (fun i active => ?_) hc
    · show (tget v i).state = .idle ↔ _
      rw [slot]
      split
      · next own => exact iff_of_true rfl (idle i own)
      · rfl
    · show (tget v i).fields = _
      rw [slot, if_neg fun own => active (idle i own)]
  have closed : (if (s.port p).mode = .opened then s.closeEffects p else s).RefsCounted ∧ ∀ i, slotOwner i = p →
      ((if (s.port p).mode = .opened then s.closeEffects p else s).slot i).state = .idle := by
    split
    · refine ⟨counted.closeEffects p, fun i own => ?_⟩
      rw [s.slot_closeEffects, s.slot_leaving_own p own]
      exact (s.slot_settled p own).1
    · next mode =>
      refine ⟨counted, fun i own => idles i ?_⟩
      rw [own]
      cases closed : (s.port p).mode with
      | closed => rfl
      | opened => exact absurd closed mode
  obtain ⟨v, e, slot⟩ := s.portReset_eq p
  rw [e]
  generalize (if (s.port p).mode = .opened then s.closeEffects p else s) = c at closed slot
  exact reset c closed.1 closed.2 v slot

theorem resetAll (s : State) (b : Bool) : (s.resetAll b).RefsCounted :=
  of_requests (s := State.reset) (fun _ => Iff.rfl) (fun _ _ => rfl) (State.reset.refsExact_iff.mp State.refsExact_reset).2

/-- A grant makes requests STALLED or RUNNING, and no more (R12, R49, R50). -/
theorem grant (h : s.RefsCounted) : s.grant.RefsCounted := by
  have timer : ∀ n, s.grant.timer n = s.timer n := fun n => congrArg (tget · n) s.timers_grant
  refine of_requests (fun i => ?_) (fun i _ => s.kept_grant.fields i) fun n => timer n ▸ h n
  by_cases due : s.grantDue = true
  · obtain ⟨t, ⟨-, stalled⟩, e⟩ | ⟨t, j, made, e⟩ := State.grant_cases due
    · exact e ▸ ((State.QueuesSame.of_stalled stalled fun j isDue => by simp [isDue]).slot i).idle
    · have before := ((State.QueuesSame.of_stalled made.stalled fun j failed => by simp [failed.1]).slot i).idle
      rw [e, t.slot_grantTo j made.due]
      split
      · next at_j => exact iff_of_false nofun fun idle => nomatch (at_j ▸ made.due).symm.trans (before.mpr idle)
      · split <;> exact before
  · unfold State.grant
    rw [if_neg due]

theorem passMicrosecond (h : s.RefsCounted) : s.passMicrosecond.RefsCounted := by
  cases lasts : s.inReset with
  | true => exact (State.passMicrosecond_inReset lasts).symm ▸ h
  | false =>
    obtain ⟨ts, ps, e, timers, -⟩ := s.passMicrosecond_eq lasts
    rw [e]
    refine of_requests (s := s) (fun _ => Iff.rfl) (fun _ _ => rfl) fun n => ?_
    show (tget ts n).Counts _
    rw [timers]
    exact (h n).tick

end State.RefsCounted

/-! ### Steps -/

/-- What keeps CLOSED ports without postings, and the counts beside them. -/
theorem State.RefsExact.keptBySteps : KeptBySteps fun s => s.ClosedIdle ∧ s.RefsCounted :=
  have c := State.ClosedIdle.keptByPorts.keptBySteps
  have k := State.RefsCounted.keptByPipeline
  { words := fun s t e h => ⟨c.words s t e h.1, h.2.of_same (.of_coreSame e)⟩
    lineLow := fun s p b h => ⟨c.lineLow s p b h.1, h.2.of_same (.updPort s p _)⟩
    slotFields := fun s i f idle h => ⟨c.slotFields s i f idle h.1, by
      refine State.RefsCounted.of_requests (fun j => ?_) (fun j active => ?_) h.2
      all_goals rw [State.slot_updSlot]
      · split <;> rfl
      · rw [if_neg fun at_i : j = i => active (at_i ▸ idle)]⟩
    configuration := fun s p a v mode h => ⟨c.configuration s p a v mode h.1, h.2.of_same (.updPort s p _)⟩
    openPort := fun s p h => ⟨c.openPort s p h.1, h.2.of_same (.openPort s p)⟩
    closeEffects := fun s p mode h => ⟨c.closeEffects s p mode h.1, h.2.closeEffects p⟩
    portReset := fun s p h => ⟨c.portReset s p h.1, .portReset (s.refsExact_iff.mpr h) p⟩
    resetAll := fun s b h => ⟨c.resetAll s b h.1, .resetAll s b⟩
    post := fun s p mode h => ⟨c.post s p mode h.1, h.2.post p⟩
    cancel := fun s p h => ⟨c.cancel s p h.1, k.cancel h.2 p⟩
    deliverTriggers := fun s names h => ⟨c.deliverTriggers s names h.1, k.deliverTriggers h.2 _⟩
    trigger := fun s i active h => ⟨c.trigger s i active h.1, k.deliverTriggers h.2 _⟩
    ackQueue := fun s p h => ⟨c.ackQueue s p h.1, k.ackQueue h.2 p⟩
    releaseSlots := fun s p h => ⟨c.releaseSlots s p h.1, h.2.of_same (.updPort s p _)⟩
    popCompletion := fun s p h => ⟨c.popCompletion s p h.1, h.2.of_same (.popCompletion s p)⟩
    claimTimer := fun s p n mode h => ⟨c.claimTimer s p n mode h.1, h.2.updTimer ((h.2 n).claim p)⟩
    setTimer := fun s n a b h => ⟨c.setTimer s n a b h.1, h.2.updTimer ((h.2 n).of_same rfl rfl fun _ => rfl)⟩
    startTimer := fun s p n owner h => ⟨c.startTimer s p n owner h.1, h.2.updTimer ((h.2 n).start p)⟩
    stopTimer := fun s p n owner h => ⟨c.stopTimer s p n owner h.1, h.2.updTimer ((h.2 n).stop p)⟩
    releaseTimer := fun s n h => ⟨c.releaseTimer s n h.1, h.2.updTimer (h.2 n).release⟩
    line := fun s n f h => ⟨c.line s n f h.1, h.2.of_same (.of_slots rfl rfl (.refl _))⟩
    renew := fun s h => ⟨c.renew s h.1, h.2.of_same (.of_slots rfl rfl (.refl _))⟩
    takeLease := fun s p mode h => ⟨c.takeLease s p mode h.1, h.2.of_same (.takeLease s p)⟩
    endLease := fun s h => ⟨c.endLease s h.1, h.2.of_same (.dropLease s)⟩
    leaseExpiry := fun s h => ⟨c.leaseExpiry s h.1, h.2.of_same (.leaseExpiry s)⟩
    setProvisional := fun s p ch v holds h =>
      ⟨c.setProvisional s p ch v holds h.1, h.2.of_same (.of_slots rfl rfl (.refl _))⟩
    dropProvisional := fun s ch h => ⟨c.dropProvisional s ch h.1, h.2.of_same (.of_slots rfl rfl (.refl _))⟩
    commitPending := fun s ch b h => ⟨c.commitPending s ch b h.1, h.2.of_same (.of_slots rfl rfl (.refl _))⟩
    fillCommit := fun s kind ch p h => ⟨c.fillCommit s kind ch p h.1, h.2.of_same (.of_slots rfl rfl (.refl _))⟩
    store := fun s x h => ⟨c.store s x h.1, h.2.of_same (.withStore s x)⟩
    restartConverter := fun s h => ⟨c.restartConverter s h.1, k.restartConverter h.2⟩
    timerUnit := fun s n h => ⟨c.timerUnit s n h.1, h.2.updTimer (h.2 n).unit⟩
    timerLoad := fun s n counting h => ⟨c.timerLoad s n counting h.1, h.2.updTimer ((h.2 n).of_same rfl rfl fun isFree =>
      absurd isFree (Timer.Counts.free_not_counting counting))⟩
    grant := fun s h => ⟨c.grant s h.1, h.2.grant⟩
    startConversion := fun s w h => ⟨c.startConversion s w h.1, k.startConversion h.2 w⟩
    converterDone := fun s raw w h => ⟨c.converterDone s raw w h.1, k.converterDone h.2 raw w⟩
    takeFirstReport := fun s h => ⟨c.takeFirstReport s h.1, k.takeFirstReport h.2⟩
    doneTimeout := fun s h => ⟨c.doneTimeout s h.1, k.doneTimeout h.2⟩
    cut := fun s i h => ⟨c.cut s i h.1, k.cut h.2 i⟩
    microsecond := fun s h => ⟨c.microsecond s h.1, h.2.passMicrosecond⟩
    timeoutTick := fun s p h => ⟨c.timeoutTick s p h.1, h.2.of_same (.updPort s p _)⟩
    timeoutExpiry := fun s p h => ⟨c.timeoutExpiry s p h.1, h.2.of_same (.updPort s p _)⟩
    takeWriteReport := fun s b h => ⟨c.takeWriteReport s b h.1, h.2.of_same (.takeWriteReport s b)⟩
    installRecords := fun s ch h => ⟨c.installRecords s ch h.1, h.2.of_same (.of_slots rfl rfl (.refl _))⟩
    emptyCommit := fun s h => ⟨c.emptyCommit s h.1, h.2.of_same (.of_slots rfl rfl (.refl _))⟩ }

/-- Settles O57: every kind of work keeps the counts exact, so every step does. -/
theorem stepKeepsRefs : Obligations.StepKeepsRefs := fun s t h e =>
  t.refsExact_iff.mpr (State.RefsExact.keptBySteps.step s t (s.refsExact_iff.mp h) e)

end Sys2Proof.Machine
end

section
/-! SUPPORT. What a CLOSE makes of the pacing timers (R30, R35, R36): the endings drop references, by which an orphan may become
FREE; then the port's own timers are released. -/
namespace Sys2Proof.Machine

/-! ### References dropped -/

/-- `u` is `t` with references dropped: state and count are the same, or an orphan has become FREE (R30). -/
def Timer.Dropped (t u : Timer) : Prop :=
  u.state = t.state ∧ u.count = t.count ∨ (t.state = .orphanedRunning ∨ t.state = .orphanedStopped) ∧ u.state = .free

theorem Timer.Dropped.dropRef {t u : Timer} (h : t.Dropped u) : t.Dropped u.dropRef := by
  rw [u.dropRef_eq]
  obtain ⟨state, count⟩ | ⟨orphan, free⟩ := h
  · split
    · next last => exact .inr ⟨state ▸ last.2, rfl⟩
    · exact .inl ⟨state, count⟩
  · rw [if_neg (by simp [free])]
    exact .inr ⟨orphan, free⟩

/-- Work on requests and pipeline does no more to a timer than drop references. -/
theorem keptByPipeline_dropped (timers : Fin 4 → Timer) :
    KeptByPipeline fun s => ∀ n, (timers n).Dropped (s.timer n) where
  same s t e h n := by
    have timer : t.timer n = s.timer n := congrArg (tget · n) e.timers
    exact timer ▸ h n
  ended s i _ h n := by
    have timer : (s.requestEnded i).timer n =
        if (s.slot i).fields.source.toNat = n.val + 1 then (s.timer n).dropRef else s.timer n :=
      State.timer_dropTimerRef (s.updSlot i Slot.ended) (s.slot i).fields n
    rw [timer]
    split
    · exact (h n).dropRef
    · exact h n
  chain _ _ h := h

/-! ### The release of a port's timers -/

/-- The timer after the release of those of port `p` (R36). -/
def Timer.releasedBy (p : Port) (t : Timer) : Timer := if t.state.owner = some p then t.release else t

theorem Timer.owner_releasedBy (p : Port) (t : Timer) : (t.releasedBy p).state.owner ≠ some p := by
  unfold Timer.releasedBy
  split
  · rw [Timer.owner_release]
    exact nofun
  · next other => exact other

/-- The release of an owned timer, by its state and its references (R35). -/
theorem Timer.releasedBy_held {p : Port} {t : Timer} (state : t.state = .held p) : t.releasedBy p =
    if t.refs = 0 then { t with state := .free, count := 0 } else { t with state := .orphanedStopped } := by
  unfold Timer.releasedBy
  rw [if_pos (by rw [state]; rfl), Timer.release]
  simp only [state]

theorem Timer.releasedBy_running {p : Port} {t : Timer} (state : t.state = .running p) : t.releasedBy p =
    if t.refs = 0 then { t with state := .free, count := 0 } else { t with state := .orphanedRunning } := by
  unfold Timer.releasedBy
  rw [if_pos (by rw [state]; rfl), Timer.release]
  simp only [state]

theorem Timer.releasedBy_other {p : Port} {t : Timer} (other : t.state.owner ≠ some p) : t.releasedBy p = t :=
  if_neg other

theorem Timer.refs_releasedBy (p : Port) (t : Timer) : (t.releasedBy p).refs = t.refs := by
  unfold Timer.releasedBy Timer.release
  repeat' split
  all_goals rfl

theorem TimerState.owner_eq_some {x : TimerState} {p : Port} (h : x.owner = some p) : x = .held p ∨ x = .running p := by
  cases x with
  | held o => exact .inl (congrArg TimerState.held (Option.some.inj h))
  | running o => exact .inr (congrArg TimerState.running (Option.some.inj h))
  | free => cases h
  | orphanedRunning => cases h
  | orphanedStopped => cases h

theorem TimerState.owner_orphan {x : TimerState} (h : x = .orphanedRunning ∨ x = .orphanedStopped) : x.owner = none := by
  obtain rfl | rfl := h <;> rfl

section
variable {t u : Timer} {p q : Port} (dropped : t.Dropped u)
include dropped

/-- An owned timer loses no more than references. -/
theorem Timer.Dropped.owned (owner : t.state.owner = some q) : u.state = t.state ∧ u.count = t.count := by
  obtain same | ⟨orphan, -⟩ := dropped
  · exact same
  · rw [TimerState.owner_orphan orphan] at owner
    cases owner

/-- The timer of the port is FREE without references. -/
theorem Timer.Dropped.free_of_own (owner : t.state.owner = some p) (none : u.refs = 0) :
    (u.releasedBy p).state = .free ∧ (u.releasedBy p).count = 0 := by
  have same := (dropped.owned owner).1
  obtain held | running := TimerState.owner_eq_some owner
  · rw [Timer.releasedBy_held (same.trans held), if_pos none]
    exact ⟨rfl, rfl⟩
  · rw [Timer.releasedBy_running (same.trans running), if_pos none]
    exact ⟨rfl, rfl⟩

theorem Timer.Dropped.orphanedRunning (running : t.state = .running p) (some : u.refs ≠ 0) :
    (u.releasedBy p).state = .orphanedRunning ∧ (u.releasedBy p).count = t.count := by
  obtain ⟨same, count⟩ := dropped.owned (q := p) (by rw [running]; rfl)
  rw [Timer.releasedBy_running (same.trans running), if_neg some]
  exact ⟨rfl, count⟩

theorem Timer.Dropped.orphanedStopped (held : t.state = .held p) (some : u.refs ≠ 0) :
    (u.releasedBy p).state = .orphanedStopped ∧ (u.releasedBy p).count = t.count := by
  obtain ⟨same, count⟩ := dropped.owned (q := p) (by rw [held]; rfl)
  rw [Timer.releasedBy_held (same.trans held), if_neg some]
  exact ⟨rfl, count⟩

theorem Timer.Dropped.of_other (other : q ≠ p) (owner : t.state.owner = some q) : (u.releasedBy p).state = t.state := by
  have same := (dropped.owned owner).1
  rw [Timer.releasedBy_other (by rw [same, owner]; exact fun e => other (Option.some.inj e)), same]

/-- An orphan is FREE exactly if no reference is left (R30). -/
theorem Timer.Dropped.of_orphan (orphan : t.state = .orphanedRunning ∨ t.state = .orphanedStopped) {n : Nat}
    (counts : (u.releasedBy p).Counts n) : (u.releasedBy p).state = if n = 0 then .free else t.state := by
  have unowned : u.state.owner ≠ some p := by
    obtain ⟨same, -⟩ | ⟨-, free⟩ := dropped
    · rw [same, TimerState.owner_orphan orphan]
      exact nofun
    · rw [free]
      exact nofun
  rw [Timer.releasedBy_other unowned] at counts ⊢
  obtain ⟨same, -⟩ | ⟨-, free⟩ := dropped
  · have some := counts.refs ▸ counts.orphan (same ▸ orphan)
    rw [if_neg (Nat.ne_of_gt some), same]
  · rw [if_pos (counts.refs.symm.trans (counts.free free).1), free]

end

/-! ### CLOSE -/

/-- The requests that still name a timer after a CLOSE are those of the other ports that are not IDLE. -/
theorem State.namingTimer_closeEffects (s : State) (p : Port) (n : Fin 4) : (s.closeEffects p).namingTimer n =
    allSlots.filter fun i => ((s.closeEffects p).slot i).state != .idle &&
      (s.slot i).fields.source.toNat == n.val + 1 && slotOwner i != p := by
  refine List.filter_congr fun i _ => ?_
  have fields : ((s.closeEffects p).slot i).fields = (s.slot i).fields := by
    rw [s.slot_closeEffects]
    exact (s.kept_leaving p).fields i
  rw [fields]
  by_cases own : slotOwner i = p
  · have idle : ((s.closeEffects p).slot i).state = .idle := by
      rw [s.slot_closeEffects, s.slot_leaving_own p own]
      exact (s.slot_settled p own).1
    simp [idle]
  · simp [own]

/-- Settles O18: a timer after the CLOSE is what dropped references and the release make of it, and its count is exact. -/
theorem closeReleasesTimers : Obligations.CloseReleasesTimers := by
  refine ⟨fun p s h => ⟨2, exec_closePort h⟩, fun p s _ exact => ?_⟩
  intro t
  have dropped : ∀ n, (s.timer n).Dropped ((s.leaving p).timer n) :=
    (keptByPipeline_dropped s.timer).leaving (fun n => .inl ⟨rfl, rfl⟩) p
  have timer : ∀ n, t.timer n = ((s.leaving p).timer n).releasedBy p := fun n =>
    (s.timer_closeEffects p n).trans ((s.leaving p).timer_releaseTimers p n)
  have counted : t.RefsCounted := (s.refsExact_iff.mp exact).2.closeEffects p
  refine ⟨fun n => timer n ▸ Timer.owner_releasedBy p _, fun n => ?_⟩
  intro others
  have counts : (((s.leaving p).timer n).releasedBy p).Counts others.length := by
    have named : t.namingTimer n = others := s.namingTimer_closeEffects p n
    rw [← timer, ← named]
    exact counted n
  have refs : ((s.leaving p).timer n).refs = others.length := (Timer.refs_releasedBy p _).symm.trans counts.refs
  have some : others ≠ [] → ((s.leaving p).timer n).refs ≠ 0 := fun some none =>
    some (List.length_eq_zero_iff.mp (refs.symm.trans none))
  rw [timer n]
  refine ⟨counts.refs, fun owner none => ?_, fun running left => (dropped n).orphanedRunning running (some left),
    fun held left => (dropped n).orphanedStopped held (some left), fun ⟨q, other, owner⟩ => (dropped n).of_other other owner,
    fun orphan => ?_⟩
  · exact (dropped n).free_of_own owner (refs.trans (congrArg List.length none))
  · rw [(dropped n).of_orphan orphan counts]
    exact ite_congr (propext List.length_eq_zero_iff) (fun _ => rfl) fun _ => rfl

end Sys2Proof.Machine
end

section
/-! SUPPORT. The timer commands (R31-R35): CLAIM_TIMER, SET_TIMER, START_TIMER, STOP_TIMER and RELEASE_TIMER. -/
namespace Sys2Proof.Machine

/-! ### The checks that the commands share (R31) -/

theorem timerNumber_none {w : Word} (large : 3 < w.toNat) : timerNumber w = none := dif_neg (by omega)

section
variable {s : State} {p : Port} {n : Fin 4} {k : Nat} {r : ResultCode} {body : Fin 4 → State → State × ResultCode}

theorem State.withTimer_of (names : s.NamesNumber p n) : s.withTimer p body = body n s := by
  unfold State.withTimer
  rw [State.param_zero, timerNumber_of names]

theorem State.withTimer_none (large : 3 < (s.port p).params.p0.toNat) : s.withTimer p body = (s, .badField) := by
  unfold State.withTimer
  rw [State.param_zero, timerNumber_none large]

theorem State.namesNumber_withCode (names : s.NamesNumber p n) (v : Word) : (s.withCode p v).NamesNumber p n := by
  unfold State.NamesNumber
  rw [State.params_withCode]
  exact names

variable (h : s.OpenAtCommand p)
include h

/-- A timer number above 3 (R31). -/
theorem State.timerCommand_badField (large : 3 < (s.port p).params.p0.toNat) :
    (s.command p k fun s => s.whenOpen p (State.withTimer p body)) = s.answered p (BitVec.ofNat 16 k) k .badField :=
  State.openCommand_answered h (State.withTimer_none (by rw [State.params_withCode]; exact large))

variable (names : s.NamesNumber p n)
include names

/-- A timer command that passes the check of the number. -/
theorem State.timerCommand_answered {t : State}
    (does : body n (s.withCode p (BitVec.ofNat 16 k)) = (t.withCode p (BitVec.ofNat 16 k), r)) :
    (s.command p k fun s => s.whenOpen p (State.withTimer p body)) = t.answered p (BitVec.ofNat 16 k) k r :=
  State.openCommand_answered h ((State.withTimer_of (State.namesNumber_withCode names _)).trans does)

/-- A command for a timer of another owner, or of none (R31). -/
theorem State.ownTimerCommand_notOwner (other : (s.timer n).state.owner ≠ some p) :
    (s.command p k fun s => s.whenOpen p (State.withOwnTimer p body)) = s.answered p (BitVec.ofNat 16 k) k .notOwner :=
  State.timerCommand_answered h names (if_neg other)

/-- A command for a timer of the port. -/
theorem State.ownTimerCommand_answered {t : State} (owner : (s.timer n).state.owner = some p)
    (does : body n (s.withCode p (BitVec.ofNat 16 k)) = (t.withCode p (BitVec.ofNat 16 k), r)) :
    (s.command p k fun s => s.whenOpen p (State.withOwnTimer p body)) = t.answered p (BitVec.ofNat 16 k) k r :=
  State.timerCommand_answered h names ((if_pos owner).trans does)

omit h names in
/-- Work on the timer, with what it comes to and its answer. -/
theorem State.updTimer_does {v : Word} {f g : Timer → Timer} (comes : f (s.timer n) = g (s.timer n)) {c : ResultCode}
    (answer : c = r) : ((s.withCode p v).updTimer n f, c) = ((s.updTimer n g).withCode p v, r) := by
  rw [State.updTimer_withCode, State.updTimer_congr s n comes, answer]

omit h names in
/-- Work that leaves the timer, with its answer. -/
theorem State.updTimer_leaves {v : Word} {f : Timer → Timer} (leaves : f (s.timer n) = s.timer n) {c : ResultCode}
    (answer : c = r) : ((s.withCode p v).updTimer n f, c) = (s.withCode p v, r) := by
  rw [State.updTimer_withCode, State.updTimer_id s n f leaves, answer]

/-! ### CLAIM_TIMER (R32) -/

theorem exec_claimTimer_takes {f : Timer → Timer} (claim : (s.timer n).claim p = (f (s.timer n), .ok)) :
    exec (.claimTimer p) s = .next ((s.updTimer n f).answered p 10 10 .ok) :=
  congrArg Host.Outcome.next (State.timerCommand_answered (k := 10) h names
    (State.updTimer_does (congrArg Prod.fst claim) (congrArg Prod.snd claim)))

theorem exec_claimTimer_refuses (claim : (s.timer n).claim p = (s.timer n, r)) :
    exec (.claimTimer p) s = .next (s.answered p 10 10 r) :=
  congrArg Host.Outcome.next (State.timerCommand_answered (k := 10) h names
    (State.updTimer_leaves (congrArg Prod.fst claim) (congrArg Prod.snd claim)))

end

/-- CLAIM_TIMER by the timer's state (R32). -/
theorem Timer.claim_eq (p : Port) (t : Timer) :
    (t.state = .free → t.claim p = ({ t with state := .held p, count := 0 }, .ok)) ∧
    (t.state = .orphanedStopped → t.claim p = ({ t with state := .held p }, .ok)) ∧
    (t.state = .orphanedRunning → t.claim p = ({ t with state := .running p }, .ok)) ∧
    ∀ q, t.state = .held q ∨ t.state = .running q → t.claim p = (t, if q = p then .already else .inUse) := by
  unfold Timer.claim
  refine ⟨fun e => by rw [e], fun e => by rw [e], fun e => by rw [e], fun q owned => ?_⟩
  obtain e | e := owned <;> rw [e]

/-- Settles O34: the number and the owner for all the commands, then CLAIM_TIMER by the timer's state. -/
theorem claimTimer : Obligations.ClaimTimer := by
  refine ⟨fun p s h => ⟨fun k c mem large => ?_, fun k c n mem names other => ?_⟩, fun p n s h names => ?_⟩
  · simp only [List.mem_cons, Prod.mk.injEq, List.not_mem_nil, or_false] at mem
    obtain ⟨rfl, rfl⟩ | ⟨rfl, rfl⟩ | ⟨rfl, rfl⟩ | ⟨rfl, rfl⟩ | ⟨rfl, rfl⟩ := mem
    all_goals exact ⟨_, congrArg Host.Outcome.next (State.timerCommand_badField h large)⟩
  · simp only [List.mem_cons, Prod.mk.injEq, List.not_mem_nil, or_false] at mem
    obtain ⟨rfl, rfl⟩ | ⟨rfl, rfl⟩ | ⟨rfl, rfl⟩ | ⟨rfl, rfl⟩ := mem
    all_goals exact ⟨_, congrArg Host.Outcome.next (State.ownTimerCommand_notOwner h names other)⟩
  · obtain ⟨free, stopped, running, owned⟩ := (s.timer n).claim_eq p
    refine ⟨fun e => ⟨_, exec_claimTimer_takes h names (free e)⟩, fun e => ⟨_, exec_claimTimer_takes h names (stopped e)⟩,
      fun e => ⟨_, exec_claimTimer_takes h names (running e)⟩, fun q other e => ⟨10, ?_⟩, fun e => ⟨10, ?_⟩⟩
    · exact exec_claimTimer_refuses h names ((owned q e).trans (by rw [if_neg other]))
    · exact exec_claimTimer_refuses h names ((owned p e).trans (by rw [if_pos rfl]))

/-! ### SET_TIMER, START_TIMER and STOP_TIMER (R33, R34) -/

/-- The ranges of SET_TIMER in the manual's words (R33). -/
theorem timerSettingOk_iff (prescale period : Nat) : timerSettingOk prescale period = true ↔
    ¬(prescale < 1 ∨ 256 < prescale ∨ period < 2 ∨ 65535 < period ∨ prescale * period < 10) := by
  simp only [timerSettingOk, Bool.and_eq_true, decide_eq_true_eq, not_or, Nat.not_lt, and_assoc]

section
variable {s : State} {p : Port} {n : Fin 4} (h : s.OpenAtCommand p) (names : s.NamesNumber p n)
include h names

theorem exec_setTimer_badField (owner : (s.timer n).state.owner = some p)
    (refused : ¬timerSettingOk (s.port p).params.p1.toNat (s.port p).params.p2.toNat = true) :
    exec (.setTimer p) s = .next (s.answered p 11 11 .badField) := by
  refine congrArg Host.Outcome.next (State.ownTimerCommand_answered (k := 11) h names owner ?_)
  simp only [State.param_one, State.param_two, State.params_withCode]
  rw [if_neg refused]

theorem exec_setTimer_ok (owner : (s.timer n).state.owner = some p)
    (ok : timerSettingOk (s.port p).params.p1.toNat (s.port p).params.p2.toNat = true) :
    exec (.setTimer p) s = .next ((s.updTimer n fun t =>
      { t with prescale := (s.port p).params.p1.toNat, period := (s.port p).params.p2.toNat }).answered p 11 11 .ok) := by
  refine congrArg Host.Outcome.next (State.ownTimerCommand_answered (k := 11) h names owner ?_)
  simp only [State.param_one, State.param_two, State.params_withCode]
  rw [if_pos ok]
  rfl

theorem exec_startTimer_held (held : (s.timer n).state = .held p) : exec (.startTimer p) s = .next ((s.updTimer n fun t =>
    { t with state := .running p, prescaleInUse := t.prescale, periodInUse := t.period, count := t.period,
             phase := 0 }).answered p 12 12 .ok) := by
  refine congrArg Host.Outcome.next (State.ownTimerCommand_answered (k := 12) h names (by rw [held]; rfl) ?_)
  have start : (s.timer n).start p = ({ (s.timer n).load with state := .running p }, .ok) := by rw [Timer.start, held]
  exact State.updTimer_does (congrArg Prod.fst start) (congrArg Prod.snd start)

theorem exec_startTimer_running (running : (s.timer n).state = .running p) :
    exec (.startTimer p) s = .next (s.answered p 12 12 .already) := by
  refine congrArg Host.Outcome.next (State.ownTimerCommand_answered (k := 12) h names (by rw [running]; rfl) ?_)
  have start : (s.timer n).start p = (s.timer n, .already) := by rw [Timer.start, running]
  exact State.updTimer_leaves (congrArg Prod.fst start) (congrArg Prod.snd start)

theorem exec_stopTimer_running (running : (s.timer n).state = .running p) : exec (.stopTimer p) s =
    .next ((s.updTimer n fun t => { t with state := .held p }).answered p 13 13 .ok) := by
  refine congrArg Host.Outcome.next (State.ownTimerCommand_answered (k := 13) h names (by rw [running]; rfl) ?_)
  have stop : (s.timer n).stop p = ({ s.timer n with state := .held p }, .ok) := by rw [Timer.stop, running]
  exact State.updTimer_does (congrArg Prod.fst stop) (congrArg Prod.snd stop)

theorem exec_stopTimer_held (held : (s.timer n).state = .held p) :
    exec (.stopTimer p) s = .next (s.answered p 13 13 .already) := by
  refine congrArg Host.Outcome.next (State.ownTimerCommand_answered (k := 13) h names (by rw [held]; rfl) ?_)
  have stop : (s.timer n).stop p = (s.timer n, .already) := by rw [Timer.stop, held]
  exact State.updTimer_leaves (congrArg Prod.fst stop) (congrArg Prod.snd stop)

end

/-- Settles O35: SET_TIMER by its ranges, START_TIMER and STOP_TIMER by the timer's state. -/
theorem setStartStopTimer : Obligations.SetStartStopTimer := by
  refine ⟨fun p n s h names owned => ?_, fun p n s h names => ?_⟩
  · have owner : (s.timer n).state.owner = some p := by obtain e | e := owned <;> rw [e] <;> rfl
    intro prescale period refused
    exact ⟨fun out => ⟨_, exec_setTimer_badField h names owner fun ok => (timerSettingOk_iff _ _).mp ok out⟩,
      fun inside => ⟨_, exec_setTimer_ok h names owner ((timerSettingOk_iff _ _).mpr inside)⟩⟩
  · exact ⟨fun held => ⟨_, exec_startTimer_held h names held⟩, fun running => ⟨_, exec_startTimer_running h names running⟩,
      fun running => ⟨_, exec_stopTimer_running h names running⟩, fun held => ⟨_, exec_stopTimer_held h names held⟩⟩

/-! ### RELEASE_TIMER (R35) -/

/-- RELEASE_TIMER by what the release makes of the timer. -/
theorem exec_releaseTimer {s : State} {p : Port} {n : Fin 4} (h : s.OpenAtCommand p) (names : s.NamesNumber p n)
    (owner : (s.timer n).state.owner = some p) {f : Timer → Timer} (release : (s.timer n).releasedBy p = f (s.timer n)) :
    exec (.releaseTimer p) s = .next ((s.updTimer n f).answered p 14 14 .ok) :=
  congrArg Host.Outcome.next (State.ownTimerCommand_answered (k := 14) h names owner
    (State.updTimer_does ((if_pos owner).symm.trans release) rfl))

/-- Settles O36: the released timer by its references and its state. -/
theorem releaseTimer : Obligations.ReleaseTimer := by
  intro p n s h names becomes
  refine ⟨fun owned none => ⟨14, ?_⟩, fun held some => ⟨14, ?_⟩, fun running some => ⟨14, ?_⟩⟩
  · obtain held | running := owned
    · exact exec_releaseTimer h names (by rw [held]; rfl) ((Timer.releasedBy_held held).trans (if_pos none))
    · exact exec_releaseTimer h names (by rw [running]; rfl) ((Timer.releasedBy_running running).trans (if_pos none))
  · exact exec_releaseTimer h names (by rw [held]; rfl) ((Timer.releasedBy_held held).trans (if_neg (Nat.ne_of_gt some)))
  · exact exec_releaseTimer h names (by rw [running]; rfl) ((Timer.releasedBy_running running).trans (if_neg (Nat.ne_of_gt some)))

end Sys2Proof.Machine
end

section
/-! SUPPORT. Triggers (R24-R26): what one trigger does to a request by its state, and what an occurrence does to all that it
reaches; TRIGGER (R40) and TIMER_EXPIRY (R29). -/
namespace Sys2Proof.Machine

/-! ### A trigger by the state of the request (R25, R26) -/

/-- `s` with an overrun counted and raised (R25). -/
def State.overrun (i : SlotId) (s : State) : State := (s.triggerMissed i).raise (slotOwner i) .triggerMissed

/-- A request that can be overrun: it is DUE, STALLED or RUNNING (R25). -/
def Slot.Active (x : Slot) : Prop := x.state = .due ∨ x.state = .stalled ∨ x.state = .running

section
variable {s : State} {i : SlotId}

theorem State.takeTrigger_pends (active : (s.slot i).Active) (clear : (s.slot i).pendingTrigger = false) :
    s.takeTrigger i = s.updSlot i fun x => { x with pendingTrigger := true } := by
  unfold State.takeTrigger
  obtain e | e | e := active <;> simp [e, clear]

theorem State.takeTrigger_overruns (active : (s.slot i).Active) (pending : (s.slot i).pendingTrigger = true)
    (lenient : (s.slot i).fields.strict = false) : s.takeTrigger i = s.overrun i := by
  unfold State.takeTrigger
  obtain e | e | e := active <;> simp only [e, pending, lenient, if_true] <;> rfl

theorem State.takeTrigger_ends (holds : (s.slot i).state = .due ∨ (s.slot i).state = .stalled)
    (pending : (s.slot i).pendingTrigger = true) (strict : (s.slot i).fields.strict = true) :
    s.takeTrigger i = (s.overrun i).endPosting i (some .overrun) := by
  unfold State.takeTrigger
  obtain e | e := holds <;> simp only [e, pending, strict, if_true] <;> rfl

theorem State.takeTrigger_drains (running : (s.slot i).state = .running) (pending : (s.slot i).pendingTrigger = true)
    (strict : (s.slot i).fields.strict = true) :
    s.takeTrigger i = (s.overrun i).updSlot i fun x => { x with state := .draining ⟨.overrun, false⟩ } := by
  unfold State.takeTrigger
  simp only [running, pending, strict, if_true]
  rfl

theorem State.takeTrigger_draining {d : Drain} (draining : (s.slot i).state = .draining d) :
    s.takeTrigger i = s.triggerMissed i := by
  unfold State.takeTrigger
  simp only [draining]
  rfl

end

theorem Slot.strictEnds_iff (x : Slot) : x.strictEnds = true ↔
    x.pendingTrigger = true ∧ x.fields.strict = true ∧ (x.state = .due ∨ x.state = .stalled) := by
  simp only [Slot.strictEnds, Bool.and_eq_true, Slot.holdsStamp_iff, and_assoc]

/-! ### An occurrence that reaches one request -/

theorem orderByRank_singleton (rank : SlotId → Nat) (i : SlotId) : orderByRank rank [i] = [i] := rfl

/-- The one request becomes DUE if it is ARMED, and takes the trigger by its state otherwise. -/
theorem State.deliverTriggers_singleton (s : State) (i : SlotId) : s.deliverTriggers [i] =
    if (s.slot i).state = .armed then (s.madeDue i s.arbiter.newStamp).countFree else (s.takeTrigger i).countFree := by
  have nobody : s.makeDue [] = s := rfl
  unfold State.deliverTriggers
  dsimp only
  by_cases armed : (s.slot i).state = .armed
  · have lasting : (s.slot i).strictEnds = false := by simp [Slot.strictEnds, Slot.holdsStamp, armed]
    rw [if_pos armed]
    simp only [List.filter_cons, List.filter_nil, armed, lasting, beq_self_eq_true, if_true, Bool.not_true, Bool.false_and,
      Bool.false_eq_true, if_false]
    rfl
  · have notArmed : ((s.slot i).state == SlotState.armed) = false := by simp [armed]
    rw [if_neg armed]
    cases ends : (s.slot i).strictEnds <;>
      simp only [List.filter_cons, List.filter_nil, notArmed, ends, Bool.not_false, Bool.not_true, Bool.and_true,
        Bool.and_false, Bool.false_eq_true, if_true, if_false, nobody]
    · rfl
    · rfl

/-! ### TRIGGER (R40) -/

section
variable {s : State} {p : Port} (h : s.OpenAtCommand p)
include h

theorem exec_trigger_notOwner (other : ∀ i, ¬s.NamesOwnSlot p i) :
    exec (.trigger p) s = .next (s.answered p 6 6 .notOwner) := by
  refine congrArg Host.Outcome.next (State.openCommand_answered (n := 6) h ?_)
  unfold State.trigger
  rw [State.param_withCode, State.param_zero, ownSlot_none other]

variable {i : SlotId} (own : s.NamesOwnSlot p i)
include own

/-- TRIGGER of one of the port's slots, by the checks that follow. -/
theorem exec_trigger_own {t : State} {r : ResultCode} (does : (if (s.slot i).fields.sourceOf ≠ some .command then
      (s.withCode p 6, ResultCode.badField) else if (s.slot i).state = .idle then (s.withCode p 6, .notActive)
      else ((s.deliverTriggers [i]).withCode p 6, .ok)) = (t.withCode p 6, r)) :
    exec (.trigger p) s = .next (t.answered p 6 6 r) := by
  refine congrArg Host.Outcome.next (State.openCommand_answered (n := 6) h (Eq.trans ?_ does))
  unfold State.trigger
  rw [State.param_withCode, State.param_zero, ownSlot_of own]
  dsimp only
  rw [State.slot_withCode, State.deliverTriggers_withCode]
  rfl

theorem exec_trigger_badField (other : (s.slot i).fields.source.toNat ≠ 9) :
    exec (.trigger p) s = .next (s.answered p 6 6 .badField) :=
  exec_trigger_own h own (if_pos fun source => other ((SlotFields.sourceOf_command _).mp source))

variable (source : (s.slot i).fields.source.toNat = 9)
include source

theorem exec_trigger_notActive (idle : (s.slot i).state = .idle) :
    exec (.trigger p) s = .next (s.answered p 6 6 .notActive) :=
  exec_trigger_own h own
    ((if_neg (Classical.not_not.mpr ((SlotFields.sourceOf_command _).mpr source))).trans (if_pos idle))

/-- What the trigger of a request that is not IDLE turns into, but for the count of free values. -/
theorem exec_trigger_gives {t : State} (active : (s.slot i).state ≠ .idle) (turns : s.deliverTriggers [i] = t.countFree) :
    ∃ w k, exec (.trigger p) s = .next ({ t with freeCount := k }.answered p w 6 .ok) := by
  refine ⟨6, t.freeCount + 1, exec_trigger_own h own ?_⟩
  rw [if_neg (Classical.not_not.mpr ((SlotFields.sourceOf_command _).mpr source)), if_neg active, turns]
  rfl

/-- The same where the request is not ARMED either: it takes the trigger by its state. -/
theorem exec_trigger_takes {t : State} (active : (s.slot i).state ≠ .idle) (notArmed : (s.slot i).state ≠ .armed)
    (takes : s.takeTrigger i = t) : ∃ w k, exec (.trigger p) s = .next ({ t with freeCount := k }.answered p w 6 .ok) :=
  exec_trigger_gives h own source active (by rw [s.deliverTriggers_singleton, if_neg notArmed, takes])

end

theorem Slot.Active.ne {x : Slot} (h : x.Active) : x.state ≠ .idle ∧ x.state ≠ .armed := by
  obtain e | e | e := h <;> rw [e] <;> exact ⟨nofun, nofun⟩

/-- Settles O24: the checks, then the trigger by the state of the request. -/
theorem trigger : Obligations.Trigger := by
  intro p s h
  refine ⟨fun other => ⟨6, exec_trigger_notOwner h other⟩, fun i own => ?_⟩
  obtain ⟨-, rfl⟩ := id own
  intro x gives pends overruns
  refine ⟨fun other => ⟨6, exec_trigger_badField h own other⟩, fun source idle => ⟨6, exec_trigger_notActive h own source idle⟩,
    fun source armed => ?_, fun source active => ?_, fun source d draining => ?_⟩
  · exact exec_trigger_gives h own source (armed ▸ nofun) (by rw [s.deliverTriggers_singleton, if_pos armed])
  · have active : (s.slot i).Active := active
    obtain ⟨notIdle, notArmed⟩ := active.ne
    have takes : ∀ t, s.takeTrigger i = t → gives t := fun t => exec_trigger_takes h own source notIdle notArmed
    refine ⟨fun clear => takes _ (State.takeTrigger_pends active clear),
      fun pending lenient => takes _ (State.takeTrigger_overruns active pending lenient),
      fun pending strict resting => takes _ (State.takeTrigger_ends ?_ pending strict),
      fun pending strict running => takes _ (State.takeTrigger_drains running pending strict)⟩
    obtain due | stalled | running := active
    · exact .inl due
    · exact .inr stalled
    · exact absurd running resting
  · exact exec_trigger_takes h own source (draining ▸ nofun) (draining ▸ nofun) (State.takeTrigger_draining draining)

end Sys2Proof.Machine
end

section
/-! SUPPORT. TIMER_EXPIRY (R24-R26, R29): the triggers of an occurrence, request by request, and its strict overruns. -/
namespace Sys2Proof.Machine

/-! ### The order of the endings -/

theorem perm_insertByRank (rank : SlotId → Nat) (i : SlotId) (l : List SlotId) : (insertByRank rank i l).Perm (i :: l) := by
  induction l with
  | nil => exact .refl _
  | cons j l ih =>
    unfold insertByRank
    split
    · exact .refl _
    · exact (ih.cons j).trans (.swap i j l)

/-- The free order of the endings lists each once (R42). -/
theorem perm_orderByRank (rank : SlotId → Nat) (l : List SlotId) : (orderByRank rank l).Perm l := by
  induction l with
  | nil => exact .refl _
  | cons i l ih => exact (perm_insertByRank rank i _).trans (ih.cons i)

/-! ### Requests that the occurrence makes DUE -/

/-- One occurrence makes its requests DUE, part by part (R42). -/
theorem State.makeDue_eq (s : State) {ids : List SlotId} (distinct : ids.Nodup) : ∃ v,
    s.makeDue ids = { s with
      slots := v
      arbiter := if ids = [] then s.arbiter else { s.arbiter with
        stampOrder := s.arbiter.stampOrder ++ [s.arbiter.newStamp], stampCounter := s.arbiter.newStamp } } ∧
    ∀ j, tget v j = if j ∈ ids then (s.slot j).becomeDue s.arbiter.newStamp else s.slot j := by
  obtain ⟨v, e, slots⟩ := s.updSlots_eq (fun _ => Slot.becomeDue s.arbiter.newStamp) distinct
  refine ⟨v, ?_, slots⟩
  unfold State.makeDue
  dsimp only
  rw [e]
  cases ids with
  | nil =>
    obtain rfl : v = s.slots := Vector.ext_tget fun j => (slots j).trans (if_neg List.not_mem_nil)
    rfl
  | cons i l => rfl

/-! ### Triggers that end nothing -/

/-- The request after a trigger that does not end it (R25, R26). -/
def Slot.triggered (x : Slot) : Slot :=
  let missed := { x with counters := x.counters.missTrigger }
  match x.state with
  | .idle | .armed => x
  | .due | .stalled => if x.pendingTrigger then missed else { x with pendingTrigger := true }
  | .running =>
    if x.pendingTrigger then
      if x.fields.strict then { missed with state := .draining ⟨.overrun, false⟩ } else missed
    else { x with pendingTrigger := true }
  | .draining _ => missed

section
variable {x : Slot}

theorem Slot.triggered_pends (active : x.Active) (clear : x.pendingTrigger = false) :
    x.triggered = { x with pendingTrigger := true } := by
  unfold Slot.triggered
  obtain e | e | e := active <;> simp [e, clear]

theorem Slot.triggered_overruns (active : x.Active) (pending : x.pendingTrigger = true)
    (lenient : x.fields.strict = false) : x.triggered = { x with counters := x.counters.missTrigger } := by
  unfold Slot.triggered
  obtain e | e | e := active <;> simp [e, pending, lenient]

theorem Slot.triggered_drains (running : x.state = .running) (pending : x.pendingTrigger = true)
    (strict : x.fields.strict = true) :
    x.triggered = { x with counters := x.counters.missTrigger, state := .draining ⟨.overrun, false⟩ } := by
  unfold Slot.triggered
  simp [running, pending, strict]

theorem Slot.triggered_draining {d : Drain} (draining : x.state = .draining d) :
    x.triggered = { x with counters := x.counters.missTrigger } := by
  unfold Slot.triggered
  simp [draining]

theorem Slot.triggered_of_rest (rest : x.state = .idle ∨ x.state = .armed) : x.triggered = x := by
  unfold Slot.triggered
  obtain e | e := rest <;> simp [e]

theorem Slot.overruns_iff : x.overruns = true ↔ x.Active ∧ x.pendingTrigger = true := by
  simp only [Slot.overruns, Slot.Active, Bool.and_eq_true, Bool.or_eq_true, beq_iff_eq, or_assoc, and_comm]

end

/-- The port after a trigger of one of its requests: TRIGGER_MISSED is raised if the request is overrun (R25). -/
def PortState.triggered (overrun : Bool) (ps : PortState) : PortState := if overrun then ps.raise .triggerMissed else ps

/-- A trigger that does not end its request touches its slot and the flags of its port. -/
theorem State.takeTrigger_eq {s : State} {i : SlotId} (lasts : (s.slot i).strictEnds = false) : s.takeTrigger i =
    (s.updSlot i Slot.triggered).updPort (slotOwner i) (PortState.triggered (s.slot i).overruns) := by
  have eq : ∀ {f : Slot → Slot} {b : Bool}, f (s.slot i) = (s.slot i).triggered → b = (s.slot i).overruns →
      (s.updSlot i f).updPort (slotOwner i) (PortState.triggered b) =
        (s.updSlot i Slot.triggered).updPort (slotOwner i) (PortState.triggered (s.slot i).overruns) :=
    fun slot overruns => by rw [State.updSlot_congr s i slot, overruns]
  have quiet : ∀ f : Slot → Slot, (s.updSlot i f).updPort (slotOwner i) (PortState.triggered false) = s.updSlot i f :=
    fun f => State.updPort_id rfl
  have noOverrun : (s.slot i).pendingTrigger = false ∨ ¬(s.slot i).Active → false = (s.slot i).overruns := fun none => by
    refine (Bool.eq_false_iff.mpr fun overruns => ?_).symm
    obtain ⟨active, pending⟩ := Slot.overruns_iff.mp overruns
    obtain clear | rest := none
    · exact nomatch clear.symm.trans pending
    · exact rest active
  by_cases active : (s.slot i).Active
  · cases pending : (s.slot i).pendingTrigger with
    | false =>
      rw [State.takeTrigger_pends active pending, ← quiet]
      exact eq (Slot.triggered_pends active pending).symm (noOverrun (.inl pending))
    | true =>
      have overruns : true = (s.slot i).overruns := (Slot.overruns_iff.mpr ⟨active, pending⟩).symm
      cases strict : (s.slot i).fields.strict with
      | false =>
        rw [State.takeTrigger_overruns active pending strict]
        exact eq (f := fun x => { x with counters := x.counters.missTrigger })
          (Slot.triggered_overruns active pending strict).symm overruns
      | true =>
        have running : (s.slot i).state = .running := by
          obtain due | stalled | running := active
          · exact nomatch lasts.symm.trans ((Slot.strictEnds_iff _).mpr ⟨pending, strict, .inl due⟩)
          · exact nomatch lasts.symm.trans ((Slot.strictEnds_iff _).mpr ⟨pending, strict, .inr stalled⟩)
          · exact running
        rw [State.takeTrigger_drains running pending strict]
        refine Eq.trans ?_ (eq (f := fun x => { x with counters := x.counters.missTrigger, state := .draining ⟨.overrun, false⟩ })
          (Slot.triggered_drains running pending strict).symm overruns)
        exact congrArg (State.raise (slotOwner i) .triggerMissed) (State.updSlot_updSlot s i
          (fun x => { x with counters := x.counters.missTrigger }) fun x => { x with state := .draining ⟨.overrun, false⟩ })
  · cases state : (s.slot i).state with
    | idle =>
      have takes : s.takeTrigger i = s := by simp [State.takeTrigger, state]
      rw [takes, ← eq (f := id) (Slot.triggered_of_rest (.inl state)).symm (noOverrun (.inr active)), quiet,
        State.updSlot_id rfl]
    | armed =>
      have takes : s.takeTrigger i = s := by simp [State.takeTrigger, state]
      rw [takes, ← eq (f := id) (Slot.triggered_of_rest (.inr state)).symm (noOverrun (.inr active)), quiet,
        State.updSlot_id rfl]
    | draining d =>
      rw [State.takeTrigger_draining state, ← eq (f := fun x => { x with counters := x.counters.missTrigger })
        (Slot.triggered_draining state).symm (noOverrun (.inr active)), quiet]
      rfl
    | due => exact absurd (.inl state) active
    | stalled => exact absurd (.inr (.inl state)) active
    | running => exact absurd (.inr (.inr state)) active

theorem PortState.raise_raise (ps : PortState) (e : Event) : (ps.raise e).raise e = ps.raise e := by
  unfold PortState.raise
  simp [BitVec.or_assoc]

open Classical in
/-- The triggers of requests that last, part by part: each touches its slot, and TRIGGER_MISSED is raised at a port exactly if
one of its requests is overrun (R25). -/
theorem State.takeTriggers_eq {l : List SlotId} (distinct : l.Nodup) (s : State)
    (last : ∀ i ∈ l, (s.slot i).strictEnds = false) : ∃ v ps,
    l.foldl (fun s i => s.takeTrigger i) s = { s with slots := v, ports := ps } ∧
      (∀ j, tget v j = if j ∈ l then (s.slot j).triggered else s.slot j) ∧
      ∀ p, ps.port p = if ∃ i ∈ l, slotOwner i = p ∧ (s.slot i).overruns = true then (s.port p).raise .triggerMissed
        else s.port p := by
  induction l generalizing s with
  | nil => exact ⟨s.slots, s.ports, rfl, fun j => (if_neg List.not_mem_nil).symm, fun p => (if_neg (by simp)).symm⟩
  | cons i l ih =>
    obtain ⟨first, others⟩ := List.nodup_cons.mp distinct
    have takes := State.takeTrigger_eq (last i List.mem_cons_self)
    have slot : ∀ j, (s.takeTrigger i).slot j = if j = i then (s.slot j).triggered else s.slot j := fun j => by
      rw [takes, State.slot_updPort, State.slot_updSlot]
    have later : ∀ j ∈ l, (s.takeTrigger i).slot j = s.slot j := fun j hj => by
      rw [slot, if_neg fun e : j = i => first (e ▸ hj)]
    have port : ∀ p, (s.takeTrigger i).port p =
        if slotOwner i = p ∧ (s.slot i).overruns = true then (s.port p).raise .triggerMissed else s.port p := fun p => by
      rw [takes, State.port_updPort]
      by_cases own : p = slotOwner i
      · cases overruns : (s.slot i).overruns <;> simp [own, PortState.triggered]
      · rw [if_neg own, if_neg fun e => own e.1.symm]
        rfl
    obtain ⟨v, ps, e, slots, ports⟩ := ih others (s.takeTrigger i) fun j hj => by
      rw [later j hj]
      exact last j (List.mem_cons_of_mem i hj)
    refine ⟨v, ps, ?_, fun j => ?_, fun p => ?_⟩
    · rw [List.foldl_cons, e, takes]
      rfl
    · rw [slots, slot]
      by_cases at_i : j = i
      · rw [if_neg (at_i ▸ first), if_pos at_i, if_pos (List.mem_cons.mpr (.inl at_i))]
      · simp [at_i]
    · have sameTail : (∃ j ∈ l, slotOwner j = p ∧ ((s.takeTrigger i).slot j).overruns = true) ↔
          ∃ j ∈ l, slotOwner j = p ∧ (s.slot j).overruns = true :=
        exists_congr fun j => and_congr_right fun hj => by rw [later j hj]
      rw [ports, port]
      simp only [sameTail, List.mem_cons, exists_eq_or_imp]
      by_cases head : slotOwner i = p ∧ (s.slot i).overruns = true <;>
        by_cases tail : ∃ j ∈ l, slotOwner j = p ∧ (s.slot j).overruns = true <;>
        simp only [head, tail, or_self, or_true, or_false, and_self, if_true, if_false, PortState.raise_raise]

/-! ### The strict overruns -/

/-- The ending of one posting leaves another where a trigger ends it: at most it returns from STALLED to DUE (R51). -/
theorem State.strictEnds_overrun_endPosting {s : State} {i j : SlotId} (other : j ≠ i) (ends : (s.slot j).strictEnds = true) :
    (((s.overrun i).endPosting i (some .overrun)).slot j).strictEnds = true := by
  have slot : (s.overrun i).slot j = s.slot j := State.slot_updSlot_ne s _ other
  by_cases active : ((s.overrun i).slot i).state = .idle
  · rw [State.endPosting_none_idle active, slot]
    exact ends
  · obtain ⟨returns, stays⟩ := State.slot_endPosting_ne active .overrun other
    by_cases fits : ∃ q, (s.overrun i).FitsAfter i .overrun j q
    · rw [returns fits, slot]
      obtain ⟨pending, strict, -⟩ := (Slot.strictEnds_iff _).mp ends
      exact (Slot.strictEnds_iff _).mpr ⟨pending, strict, .inl rfl⟩
    · rw [stays fits, slot]
      exact ends

/-- The triggers that end postings, one after another: each posting has its overrun counted and raised, and ends (R26). -/
theorem State.takeTriggers_end {l : List SlotId} (distinct : l.Nodup) (s : State)
    (ends : ∀ i ∈ l, (s.slot i).strictEnds = true) : l.foldl (fun s i => s.takeTrigger i) s =
      l.foldl (fun u i => (u.overrun i).endPosting i (some .overrun)) s := by
  induction l generalizing s with
  | nil => rfl
  | cons i l ih =>
    obtain ⟨first, others⟩ := List.nodup_cons.mp distinct
    obtain ⟨pending, strict, holds⟩ := (Slot.strictEnds_iff _).mp (ends i List.mem_cons_self)
    rw [List.foldl_cons, List.foldl_cons, State.takeTrigger_ends holds pending strict]
    refine ih others _ fun j hj => ?_
    exact State.strictEnds_overrun_endPosting (fun e => first (e ▸ hj)) (ends j (List.mem_cons_of_mem i hj))

/-! ### An occurrence, part by part -/

open Classical in
/-- What an occurrence that reaches the requests `ids` makes of `s` before it ends any posting (R24-R26, R42). -/
structure State.Triggered (ids : List SlotId) (s t : State) : Prop where
  slot : ∀ j, t.slot j = if j ∈ ids ∧ (s.slot j).strictEnds = false then
      (if (s.slot j).state = .armed then (s.slot j).becomeDue s.arbiter.newStamp else (s.slot j).triggered)
    else s.slot j
  port : ∀ p, t.port p = if ∃ i ∈ ids, (s.slot i).strictEnds = false ∧ slotOwner i = p ∧ (s.slot i).overruns = true then
      (s.port p).raise .triggerMissed else s.port p
  arbiter : t.arbiter = if ∃ i ∈ ids, (s.slot i).state = .armed then { s.arbiter with
      stampOrder := s.arbiter.stampOrder ++ [s.arbiter.newStamp], stampCounter := s.arbiter.newStamp } else s.arbiter
  rest : t = { s with slots := t.slots, ports := t.ports, arbiter := t.arbiter }

theorem Slot.not_strictEnds_of_armed {x : Slot} (armed : x.state = .armed) : x.strictEnds = false := by
  simp [Slot.strictEnds, Slot.holdsStamp, armed]

theorem Slot.not_overruns_of_armed {x : Slot} (armed : x.state = .armed) : x.overruns = false := by
  simp [Slot.overruns, armed]

/-- An occurrence makes DUE, triggers and ends, in this order; the endings come in some order. -/
theorem State.deliverTriggers_eq (s : State) {ids : List SlotId} (distinct : ids.Nodup) : ∃ (t : State) (order : List SlotId),
    State.Triggered ids s t ∧ order.Nodup ∧ (∀ i, i ∈ order ↔ i ∈ ids ∧ (s.slot i).strictEnds = true) ∧
      s.deliverTriggers ids =
        (order.foldl (fun u i => (u.overrun i).endPosting i (some .overrun)) t).countFree := by
  classical
  have mem_armed : ∀ j, j ∈ ids.filter (fun i => (s.slot i).state == .armed) ↔ j ∈ ids ∧ (s.slot j).state = .armed :=
    fun j => by rw [List.mem_filter, beq_iff_eq]
  have mem_other : ∀ j, j ∈ ids.filter (fun i => !((s.slot i).state == .armed) && !(s.slot i).strictEnds) ↔
      j ∈ ids ∧ (s.slot j).state ≠ .armed ∧ (s.slot j).strictEnds = false := fun j => by
    rw [List.mem_filter]
    simp
  obtain ⟨v, due, dueSlots⟩ := s.makeDue_eq (distinct.filter fun i => (s.slot i).state == .armed)
  have dueSlot : ∀ j, (s.makeDue (ids.filter fun i => (s.slot i).state == .armed)).slot j =
      if j ∈ ids ∧ (s.slot j).state = .armed then (s.slot j).becomeDue s.arbiter.newStamp else s.slot j := fun j => by
    rw [due]
    exact (dueSlots j).trans (ite_congr (propext (mem_armed j)) (fun _ => rfl) fun _ => rfl)
  have notDue : ∀ j, (s.slot j).state ≠ .armed →
      (s.makeDue (ids.filter fun i => (s.slot i).state == .armed)).slot j = s.slot j := fun j notArmed => by
    rw [dueSlot, if_neg fun e => notArmed e.2]
  obtain ⟨w, ps, taken, slots, ports⟩ := State.takeTriggers_eq
    (distinct.filter fun i => !((s.slot i).state == .armed) && !(s.slot i).strictEnds)
    (s.makeDue (ids.filter fun i => (s.slot i).state == .armed)) fun j hj => by
      obtain ⟨-, notArmed, lasts⟩ := (mem_other j).mp hj
      rw [notDue j notArmed]
      exact lasts
  let t : State := { s.makeDue (ids.filter fun i => (s.slot i).state == .armed) with slots := w, ports := ps }
  have slot : ∀ j, t.slot j = if j ∈ ids ∧ (s.slot j).strictEnds = false then
      (if (s.slot j).state = .armed then (s.slot j).becomeDue s.arbiter.newStamp else (s.slot j).triggered)
      else s.slot j := fun j => by
    refine (slots j).trans ((ite_congr (propext (mem_other j)) (fun _ => rfl) fun _ => rfl).trans ?_)
    by_cases armed : (s.slot j).state = .armed
    · rw [if_neg fun e => e.2.1 armed, dueSlot, if_pos armed]
      exact ite_congr (by simp [armed, Slot.not_strictEnds_of_armed armed]) (fun _ => rfl) fun _ => rfl
    · rw [notDue j armed, if_neg armed]
      exact ite_congr (by simp [armed]) (fun _ => rfl) fun _ => rfl
  refine ⟨t, orderByRank (Config.endingRank t.freeCount) (ids.filter fun i => (s.slot i).strictEnds),
    ⟨slot, fun p => ?_, ?_, ?_⟩, ?_, fun i => ?_, ?_⟩
  · refine (ports p).trans ?_
    have port : (s.makeDue (ids.filter fun i => (s.slot i).state == .armed)).port p = s.port p := by
      rw [due]
      rfl
    rw [port]
    refine ite_congr (propext (exists_congr fun i => ?_)) (fun _ => rfl) fun _ => rfl
    rw [mem_other]
    by_cases armed : (s.slot i).state = .armed
    · simp [armed, Slot.not_overruns_of_armed armed]
    · rw [notDue i armed]
      simp [armed, and_assoc]
  · show (s.makeDue _).arbiter = _
    rw [due]
    dsimp only
    by_cases some : ∃ i ∈ ids, (s.slot i).state = .armed
    · obtain ⟨i, hi⟩ := id some
      rw [if_pos some, if_neg (List.ne_nil_of_mem ((mem_armed i).mpr hi))]
    · rw [if_neg some, if_pos (List.filter_eq_nil_iff.mpr fun i hi e => some ⟨i, hi, beq_iff_eq.mp e⟩)]
  · show t = _
    simp only [t, due]
  · exact (perm_orderByRank _ _).nodup_iff.mpr (distinct.filter _)
  · rw [(perm_orderByRank _ _).mem_iff, List.mem_filter]
  · have ended := State.takeTriggers_end (s := t)
      ((perm_orderByRank (Config.endingRank t.freeCount) _).nodup_iff.mpr (distinct.filter fun i => (s.slot i).strictEnds))
      fun i hi => by
        have ends := (List.mem_filter.mp ((perm_orderByRank _ _).mem_iff.mp hi)).2
        rw [slot, if_neg fun lasts => nomatch lasts.2.symm.trans ends]
        exact ends
    unfold State.deliverTriggers
    dsimp only
    rw [taken]
    exact congrArg State.countFree ended

/-! ### TIMER_EXPIRY (R29) -/

theorem Timer.expiryDue_iff (t : Timer) : t.expiryDue = true ↔
    ((∃ p, t.state = .running p) ∨ t.state = .orphanedRunning) ∧ t.count = 0 := by
  unfold Timer.expiryDue TimerState.counting
  cases t.state <;> simp

/-- The reload and the requests that the expiry reaches. -/
theorem exec_timerExpiry {s : State} {n : Fin 4} (due : (s.timer n).expiryDue = true) : exec (.timerExpiry n) s =
    .next ((s.updTimer n Timer.load).deliverTriggers (s.reached fun f => f.namesTimer n)) :=
  congrArg Host.Outcome.next (if_pos due)

theorem State.mem_reached_timer {s : State} {n : Fin 4} {i : SlotId} : i ∈ s.reached (fun f => f.namesTimer n) ↔
    (s.slot i).fields.source.toNat = n.val + 1 ∧ (s.slot i).state ≠ .idle := by
  simp [State.reached, mem_allSlots, SlotFields.namesTimer_iff]

theorem State.nodup_reached (s : State) (names : SlotFields → Bool) : (s.reached names).Nodup := nodup_allSlots.filter _

/-- An occurrence that reaches one request alone. -/
theorem State.reached_timer_singleton {s : State} {n : Fin 4} {i : SlotId}
    (source : (s.slot i).fields.source.toNat = n.val + 1) (active : (s.slot i).state ≠ .idle)
    (alone : ∀ j, j ≠ i → (s.slot j).fields.source.toNat = n.val + 1 → (s.slot j).state = .idle) :
    s.reached (fun f => f.namesTimer n) = [i] := by
  refine List.perm_singleton.mp ((List.perm_ext_iff_of_nodup (s.nodup_reached _) (nodup_one i)).mpr fun j => ?_)
  rw [State.mem_reached_timer, List.mem_singleton]
  refine ⟨fun ⟨names, isActive⟩ => ?_, fun e => e ▸ ⟨source, active⟩⟩
  exact Classical.byContradiction fun other => isActive (alone j other names)

section
variable {s t : State} {n : Fin 4} {ids : List SlotId} (h : State.Triggered ids s t) {i : SlotId}
include h

theorem State.Triggered.slot_of_not (untouched : i ∈ ids → (s.slot i).strictEnds = true) : t.slot i = s.slot i := by
  rw [h.slot, if_neg fun lasts => nomatch lasts.2.symm.trans (untouched lasts.1)]

theorem State.Triggered.slot_of_armed (reached : i ∈ ids) (armed : (s.slot i).state = .armed) :
    t.slot i = (s.slot i).becomeDue s.arbiter.newStamp := by
  rw [h.slot, if_pos ⟨reached, Slot.not_strictEnds_of_armed armed⟩, if_pos armed]

theorem State.Triggered.slot_of_active (reached : i ∈ ids) (lasts : (s.slot i).strictEnds = false)
    (notArmed : (s.slot i).state ≠ .armed) : t.slot i = (s.slot i).triggered := by
  rw [h.slot, if_pos ⟨reached, lasts⟩, if_neg notArmed]

end

/-- Settles O37: the requests that become DUE, those that last and those that end take their triggers in this order. -/
theorem timerExpiry : Obligations.TimerExpiry := by
  refine ⟨fun n s counting zero => ?_, fun n i s counting zero source pending strict holds alone => ?_⟩
  · intro names active ends
    have due := (s.timer n).expiryDue_iff.mpr ⟨counting, zero⟩
    have reached : ∀ i, i ∈ s.reached (fun f => f.namesTimer n) ↔ names i ∧ (s.slot i).state ≠ .idle :=
      fun i => State.mem_reached_timer
    have isEnding : ∀ i, ends i ↔ i ∈ s.reached (fun f => f.namesTimer n) ∧ (s.slot i).strictEnds = true := fun i => by
      rw [reached, Slot.strictEnds_iff, and_assoc]
      refine and_congr_right fun _ => (and_iff_right_of_imp ?_).symm
      rintro ⟨-, -, e | e⟩ <;> rw [e] <;> exact nofun
    obtain ⟨t, order, triggered, nodup, mem, e⟩ :=
      (s.updTimer n Timer.load).deliverTriggers_eq (s.nodup_reached fun f => f.namesTimer n)
    have lasts : ∀ i, names i → (s.slot i).state ≠ .idle → ¬ends i → (s.slot i).strictEnds = false := fun i name isActive not =>
      Bool.eq_false_iff.mpr fun ending => not ((isEnding i).mpr ⟨(reached i).mpr ⟨name, isActive⟩, ending⟩)
    have rest := triggered.rest
    have timer : ∀ m, t.timer m = (s.updTimer n Timer.load).timer m := fun m => by rw [rest]; rfl
    have becomes : ∀ i y, names i → ¬ends i → (s.slot i).state ≠ .idle → (s.slot i).state ≠ .armed →
        (s.slot i).triggered = y → t.slot i = y := fun i y name not isActive notArmed is =>
      (triggered.slot_of_active ((reached i).mpr ⟨name, isActive⟩) (lasts i name isActive not) notArmed).trans is
    refine ⟨t, order, _, nodup, fun i => (mem i).trans (isEnding i).symm, (exec_timerExpiry due).trans (congrArg _ e), ?_,
      fun m other => ?_, fun i untouched => ?_, fun i name not => ?_, fun p => ⟨?_, ?_⟩, ?_, ?_,
      by rw [rest]; rfl, by rw [rest]; rfl, by rw [rest]; rfl, by rw [rest]; rfl, by rw [rest]; rfl, by rw [rest]; rfl,
      by rw [rest]; rfl⟩
    · rw [timer, State.timer_updTimer_self]
      rfl
    · rw [timer, State.timer_updTimer, if_neg other]
    · refine triggered.slot_of_not fun isReached => ?_
      obtain ⟨name, isActive⟩ := (reached i).mp isReached
      obtain notNamed | idle | ending := untouched
      · exact absurd name notNamed
      · exact absurd idle isActive
      · exact ((isEnding i).mp ending).2
    · refine ⟨fun armed => ?_, fun isActive clear => ?_, fun isActive pending lenient => ?_, fun running pending strict => ?_,
        fun d draining => ?_⟩
      · exact triggered.slot_of_armed ((reached i).mpr ⟨name, armed ▸ nofun⟩) armed
      · obtain ⟨notIdle, notArmed⟩ := Slot.Active.ne isActive
        exact becomes i _ name not notIdle notArmed (Slot.triggered_pends isActive clear)
      · obtain ⟨notIdle, notArmed⟩ := Slot.Active.ne isActive
        exact becomes i _ name not notIdle notArmed (Slot.triggered_overruns isActive pending lenient)
      · exact becomes i _ name not (running ▸ nofun) (running ▸ nofun) (Slot.triggered_drains running pending strict)
      · exact becomes i _ name not (draining ▸ nofun) (draining ▸ nofun) (Slot.triggered_draining draining)
    · rintro ⟨i, own, name, not, isActive, pending⟩
      have notIdle := (Slot.Active.ne isActive).1
      exact (triggered.port p).trans (if_pos ⟨i, (reached i).mpr ⟨name, notIdle⟩, lasts i name notIdle not, own,
        Slot.overruns_iff.mpr ⟨isActive, pending⟩⟩)
    · intro none
      refine (triggered.port p).trans (if_neg ?_)
      rintro ⟨i, isReached, last, own, overruns⟩
      obtain ⟨isActive, pending⟩ := Slot.overruns_iff.mp overruns
      have not : ¬ends i := fun ending => nomatch last.symm.trans ((isEnding i).mp ending).2
      exact nomatch (none i own ((reached i).mp isReached).1 not isActive).symm.trans pending
    · rintro ⟨i, name, armed⟩
      exact triggered.arbiter.trans (if_pos ⟨i, (reached i).mpr ⟨name, armed ▸ nofun⟩, armed⟩)
    · intro none
      refine triggered.arbiter.trans (if_neg ?_)
      rintro ⟨i, isReached, armed⟩
      exact none i ((reached i).mp isReached).1 armed
  · have due := (s.timer n).expiryDue_iff.mpr ⟨counting, zero⟩
    have active : (s.slot i).state ≠ .idle ∧ (s.slot i).state ≠ .armed := by
      obtain e | e := holds <;> rw [e] <;> exact ⟨nofun, nofun⟩
    have delivers : (s.updTimer n Timer.load).deliverTriggers (s.reached fun f => f.namesTimer n) =
        (((s.updTimer n Timer.load).overrun i).endPosting i (some .overrun)).countFree := by
      rw [State.reached_timer_singleton source active.1 alone, State.deliverTriggers_singleton,
        if_neg (show ((s.updTimer n Timer.load).slot i).state ≠ .armed from active.2),
        State.takeTrigger_ends (s := s.updTimer n Timer.load) holds pending strict]
    exact ⟨(((s.updTimer n Timer.load).overrun i).endPosting i (some .overrun)).freeCount + 1,
      (exec_timerExpiry due).trans (congrArg Host.Outcome.next delivers)⟩

end Sys2Proof.Machine
end

section
/-! SUPPORT. The trigger lines (R37, R38): SET_LINE, and how a change of an input is qualified. -/
namespace Sys2Proof.Machine

/-! ### SET_LINE (R38) -/

theorem lineNumber_none {w : Word} (large : 3 < w.toNat) : lineNumber w = none := dif_neg (by omega)

theorem edgeSetting_none {w : Word} (large : 2 < w.toNat) : edgeSetting w = none := by
  unfold edgeSetting
  rw [if_neg (by omega), if_neg (by omega), if_neg (by omega)]

theorem debounceSetting_none {w : Word} (large : 3 < w.toNat) : debounceSetting w = none := by
  unfold debounceSetting
  rw [if_neg (by omega), if_neg (by omega), if_neg (by omega), if_neg (by omega)]

theorem edgeSetting_of_code {w : Word} {e : EdgeSetting} (code : w.toNat = e.code) : edgeSetting w = some e := by
  unfold edgeSetting
  rw [code]
  cases e <;> rfl

theorem debounceSetting_of_code {w : Word} {d : Debounce} (code : w.toNat = d.code) : debounceSetting w = some d := by
  unfold debounceSetting
  rw [code]
  cases d <;> rfl

theorem State.mem_reached_line {s : State} {n : Fin 4} {i : SlotId} : i ∈ s.reached (fun f => f.namesLine n) ↔
    (s.slot i).fields.source.toNat = n.val + 5 ∧ (s.slot i).state ≠ .idle := by
  simp [State.reached, mem_allSlots, SlotFields.namesLine_iff]

/-- A line is in use while a request that is not IDLE names it (R38). -/
theorem State.lineInUse_iff (s : State) (n : Fin 4) : s.lineInUse n = true ↔
    ∃ i, (s.slot i).state ≠ .idle ∧ (s.slot i).fields.source.toNat = n.val + 5 := by
  unfold State.lineInUse
  rw [Bool.not_eq_true', List.isEmpty_eq_false_iff_exists_mem]
  exact exists_congr fun i => State.mem_reached_line.trans and_comm

section
variable {s : State} {p : Port} (h : s.OpenAtCommand p)
include h

/-- SET_LINE by what its three parameters name. -/
theorem exec_setLine_badField (none : lineNumber (s.port p).params.p0 = none ∨ edgeSetting (s.port p).params.p1 = none ∨
    debounceSetting (s.port p).params.p2 = none) : exec (.setLine p) s = .next (s.answered p 15 15 .badField) := by
  refine congrArg Host.Outcome.next (State.openCommand_answered (n := 15) h ?_)
  unfold State.setLine
  simp only [State.param_zero, State.param_one, State.param_two, State.params_withCode]
  split
  · next number edge debounce =>
    obtain e | e | e := none
    · exact nomatch e.symm.trans number
    · exact nomatch e.symm.trans edge
    · exact nomatch e.symm.trans debounce
  · rfl

variable {n : Fin 4} {e : EdgeSetting} {d : Debounce} (number : s.NamesNumber p n)
  (edge : (s.port p).params.p1.toNat = e.code) (debounce : (s.port p).params.p2.toNat = d.code)
include number edge debounce

omit h in
theorem State.setLine_of (v : Word) : (s.withCode p v).setLine p =
    if s.lineInUse n then (s.withCode p v, .inUse) else ((s.updLine n (Line.configure e d)).withCode p v, .ok) := by
  unfold State.setLine
  simp only [State.param_zero, State.param_one, State.param_two, State.params_withCode, lineNumber_of number,
    edgeSetting_of_code edge, debounceSetting_of_code debounce]
  rfl

theorem exec_setLine_inUse (used : s.lineInUse n = true) : exec (.setLine p) s = .next (s.answered p 15 15 .inUse) :=
  congrArg Host.Outcome.next (State.openCommand_answered (n := 15) h
    ((State.setLine_of number edge debounce _).trans (if_pos used)))

theorem exec_setLine_ok (free : ¬s.lineInUse n = true) :
    exec (.setLine p) s = .next ((s.updLine n (Line.configure e d)).answered p 15 15 .ok) :=
  congrArg Host.Outcome.next (State.openCommand_answered (n := 15) h
    ((State.setLine_of number edge debounce _).trans (if_neg free)))

end

/-! ### Changes of the input (R37) -/

theorem EdgeSetting.triggers_iff (e : EdgeSetting) (level : Bool) : e.triggers level = true ↔
    e = .both ∨ (e = .rising ∧ level = true) ∨ (e = .falling ∧ level = false) := by
  cases e <;> simp [EdgeSetting.triggers]

/-- The requests that a line's edge reaches, in the manual's words (R24). -/
theorem State.reached_line (s : State) (n : Fin 4) : s.reached (fun f => f.namesLine n) =
    allSlots.filter fun i => (s.slot i).fields.source.toNat == n.val + 5 && (s.slot i).state != .idle := by
  refine List.filter_congr fun i _ => ?_
  have names : (s.slot i).fields.namesLine n = ((s.slot i).fields.source.toNat == n.val + 5) := by
    rw [Bool.eq_iff_iff, SlotFields.namesLine_iff, beq_iff_eq]
  exact congrArg (· && _) names

/-- A qualified change, in the manual's words (R37). -/
theorem State.qualifiedChange_eq (s : State) (n : Fin 4) (level : Bool) : s.qualifiedChange n level =
    if (s.line n).edge = .both ∨ ((s.line n).edge = .rising ∧ level = true) ∨ ((s.line n).edge = .falling ∧ level = false) then
      (s.updLine n fun l => { l with level := level, candidate := none }).deliverTriggers
        (allSlots.filter fun i => (s.slot i).fields.source.toNat == n.val + 5 && (s.slot i).state != .idle)
    else s.updLine n fun l => { l with level := level, candidate := none } := by
  unfold State.qualifiedChange
  dsimp only
  refine ite_congr (propext ((s.line n).edge.triggers_iff level)) (fun _ => ?_) fun _ => rfl
  exact congrArg (fun ids => State.deliverTriggers ids _) (s.reached_line n)

section
variable {s : State} {n : Fin 4} {level : Bool}

theorem State.lineInputChange_same (same : (s.line n).input = level) : s.lineInputChange n level = s := if_pos same

variable (moves : (s.line n).input ≠ level) (running : s.inReset = false)
include moves running

/-- The line after the pin has moved has its old level, settings and qualification. -/
theorem State.lineInputChange_moved : s.lineInputChange n level =
    (let moved := s.updLine n fun l => { l with input := level }
    if (s.line n).level = level then moved.updLine n fun l => { l with candidate := none }
    else if (s.line n).debounce = .none then moved.qualifiedChange n level
    else if (s.line n).candidate.isSome then moved
    else moved.updLine n fun l => { l with candidate := some ⟨level, s.now + l.debounce.time⟩ }) := by
  have line : (s.updLine n fun l => { l with input := level }).line n = { s.line n with input := level } :=
    State.line_updLine_self s n _
  have going : (s.updLine n fun l => { l with input := level }).inReset = false := running
  unfold State.lineInputChange
  rw [if_neg moves]
  dsimp only
  rw [if_neg (by rw [going]; exact Bool.false_ne_true), line]
  rfl

end

theorem State.updLine_congr (s : State) (n : Fin 4) {f g : Line → Line} (h : f (s.line n) = g (s.line n)) :
    s.updLine n f = s.updLine n g := by
  have same : f (tget s.lines n) = g (tget s.lines n) := h
  unfold State.updLine tupd
  rw [same]

/-- A qualification whose end is reached, by its candidate (R37). -/
theorem State.lineQualificationEnd_of {s : State} {n : Fin 4} {c : Qualification} (candidate : (s.line n).candidate = some c) :
    s.lineQualificationEnd n = if c.endTime ≤ s.now then s.qualifiedChange n c.level else s := by
  unfold State.lineQualificationEnd State.qualificationDue
  simp only [candidate, Option.any_some, decide_eq_true_eq]

theorem State.lineQualificationEnd_none {s : State} {n : Fin 4} (none : (s.line n).candidate = none) :
    s.lineQualificationEnd n = s := by
  unfold State.lineQualificationEnd State.qualificationDue
  simp only [none, Option.any_none, Bool.false_eq_true, if_false]

/-- Settles O38: SET_LINE by its parameters and the line's use, then the input's change and the qualification's end. -/
theorem triggerLines : Obligations.TriggerLines := by
  refine ⟨fun p s h => ⟨fun out => ⟨15, exec_setLine_badField h ?_⟩, fun n e d number edge debounce =>
    ⟨fun ⟨i, active, names⟩ => ⟨15, ?_⟩, fun idle => ⟨15, ?_⟩⟩⟩, fun n level s running => ?_⟩
  · exact out.imp lineNumber_none (Or.imp edgeSetting_none debounceSetting_none)
  · exact exec_setLine_inUse h number edge debounce ((s.lineInUse_iff n).mpr ⟨i, active, names⟩)
  · refine exec_setLine_ok h number edge debounce fun used => ?_
    obtain ⟨i, active, names⟩ := (s.lineInUse_iff n).mp used
    exact active (idle i names)
  · intro l time qualified moved
    have line : moved.line n = { l with input := level } := State.line_updLine_self s n _
    refine ⟨fun same => ?_, fun moves back => ?_, fun moves away none => ?_, fun moves away some free => ?_,
      fun c candidate => ⟨fun reached => ?_, fun early => ?_⟩, fun none => ?_⟩
    · exact congrArg Host.Outcome.next (State.lineInputChange_same same)
    · exact congrArg Host.Outcome.next ((State.lineInputChange_moved moves running).trans (if_pos back))
    · refine congrArg Host.Outcome.next ((State.lineInputChange_moved moves running).trans
        ((if_neg away).trans ((if_pos none).trans ((moved.qualifiedChange_eq n level).trans ?_))))
      rw [line]
      rfl
    · refine congrArg Host.Outcome.next ((State.lineInputChange_moved moves running).trans
        ((if_neg away).trans ((if_neg some).trans ((if_neg ?_).trans (State.updLine_congr _ _ ?_)))))
      · rw [free]
        exact Bool.false_ne_true
      · rw [line]
        have same : ∀ d : Debounce, d.time = time d := fun d => by cases d <;> rfl
        rw [same]
    · exact congrArg Host.Outcome.next ((State.lineQualificationEnd_of candidate).trans
        ((if_pos reached).trans (s.qualifiedChange_eq n c.level)))
    · exact congrArg Host.Outcome.next ((State.lineQualificationEnd_of candidate).trans (if_neg (Nat.not_le.mpr early)))
    · exact congrArg Host.Outcome.next (State.lineQualificationEnd_none none)

end Sys2Proof.Machine
end

section
/-! SUPPORT. The Conversion Sequencer's events (R57-R73): refill and settle, readout, START, the converter's done, its fault and
its restart. -/
namespace Sys2Proof.Machine

/-! ### Refill and settle (R60, R61) -/

section
variable {s : State} {r : SweepRecord}

theorem State.refill_some {x : SweepRecord} (next : nextConversion (s.slot r.slot) r = some x) :
    s.refill r = { s with seq := s.seq.select s.now x } := by
  unfold State.refill
  rw [next]
  rfl

theorem State.refill_none (last : nextConversion (s.slot r.slot) r = none) :
    s.refill r = { s with seq := { s.seq with active := none } } := by
  unfold State.refill
  rw [last]
  rfl

end

theorem nextConversion_entry {x : Slot} {r : SweepRecord} (last : r.count ≤ r.repetition + 1) : nextConversion x r =
    if r.entry + 1 < x.fields.scanLength.toNat ∧ x.truncatedAt ≠ some r.entry then
      some (sweepRecord r.slot r.sweepIndex x.fields (r.entry + 1) 0) else none := if_neg (Nat.not_lt.mpr last)

/-- Settles O47: the three ways on from a record, and a selection by the channel. -/
theorem refillAndSettle : Obligations.RefillAndSettle := by
  refine ⟨fun r s => ?_, fun now r q => ⟨fun same => if_pos same, fun other => if_neg other⟩⟩
  intro x e next last
  refine ⟨fun repeats => ?_, fun done inside notLast => ?_, fun done ends => ?_⟩
  · exact State.refill_some (if_pos repeats)
  · exact State.refill_some ((nextConversion_entry done).trans (if_pos ⟨inside, fun cut => notLast (.inr cut)⟩))
  · refine State.refill_none ((nextConversion_entry done).trans (if_neg ?_))
    rintro ⟨inside, uncut⟩
    obtain final | cut := ends
    · exact absurd final (Nat.ne_of_lt inside)
    · exact uncut cut

/-! ### Readout (R65-R67, R81) -/

theorem extremeCode_eq (raw : Word) : extremeCode raw = decide (raw.toNat = 0 ∨ raw.toNat = 65535) := by
  have code : ∀ n, n < 65536 → ((raw == BitVec.ofNat 16 n) = decide (raw.toNat = n)) := fun n small => by
    rw [Bool.eq_iff_iff, beq_iff_eq, decide_eq_true_eq, ← BitVec.toNat_inj, BitVec.toNat_ofNat, Nat.mod_eq_of_lt small]
  rw [Bool.decide_or]
  exact congr (congrArg or (code 0 (by omega))) (code 65535 (by omega))

section
variable {s : State} {r : SweepRecord} {start : DWord} (buffer : s.seq.buffer = some ⟨.sweep r, start⟩)
include buffer

theorem State.readout_sweep (c : Option Port) :
    s.readout c = (s.updSeq fun q => { q with buffer := none }).readSweep c r start := by
  unfold State.readout
  rw [buffer]

variable {a : Accumulator} (added : accumulate r start s.seq.converterCode s.seq.accumulator = some a)
include added

/-- An entry that is not finished is kept in the accumulator (R66). -/
theorem State.readout_unfinished (more : a.readouts ≠ r.count) (c : Option Port) :
    s.readout c = ({ s with seq := { s.seq with buffer := none, accumulator := some a } }, none) := by
  rw [State.readout_sweep buffer]
  unfold State.readSweep
  simp only [State.seq_updSeq, added]
  rw [if_neg more]
  rfl

/-- A finished entry is a sample, with the report that it makes (R66, R67, R81). -/
theorem State.readout_finished (finished : a.readouts = r.count) (c : Option Port) : s.readout c =
    ({ s with seq := { s.seq with buffer := none, accumulator := none } }.deliver c (finishedSample r a),
      (s.slot r.slot).reportAfter r) := by
  rw [State.readout_sweep buffer]
  unfold State.readSweep
  simp only [State.seq_updSeq, added]
  rw [if_pos finished]
  rfl

end

/-- Anything but a sweep's record is discarded (R65). -/
theorem State.readout_discarded {s : State} (other : ∀ r start, s.seq.buffer ≠ some ⟨.sweep r, start⟩) (c : Option Port) :
    s.readout c = ({ s with seq := { s.seq with buffer := none } }, none) := by
  unfold State.readout
  dsimp only
  split
  · next r start buffer => exact absurd buffer (other r start)
  all_goals rfl

/-- What the readout leaves in the accumulator, in the manual's words (R66). -/
theorem accumulate_of {r : SweepRecord} {start : DWord} {raw : Word} {acc : Option Accumulator} {a : Accumulator}
    (adds : r.repetition = 0 ∧ a = ⟨r.slot, r.sweepIndex, r.entry, (raw.toNat : Int) - 32768, 1,
        decide (raw.toNat = 0 ∨ raw.toNat = 65535), start⟩ ∨
      r.repetition ≠ 0 ∧ ∃ b, acc = some b ∧ a = { b with
        sum := b.sum + ((raw.toNat : Int) - 32768), readouts := b.readouts + 1
        overRange := b.overRange || decide (raw.toNat = 0 ∨ raw.toNat = 65535) }) :
    accumulate r start raw acc = some a := by
  unfold accumulate
  rw [extremeCode_eq]
  obtain ⟨first, rfl⟩ | ⟨later, b, rfl, rfl⟩ := adds
  · exact if_pos first
  · exact if_neg later

theorem Slot.reportAfter_last {x : Slot} {r : SweepRecord} (last : r.entry + 1 = x.fields.scanLength.toNat) :
    x.reportAfter r = some ⟨r.slot, .completed⟩ := if_pos last

theorem Slot.reportAfter_cut {x : Slot} {r : SweepRecord} (notLast : r.entry + 1 ≠ x.fields.scanLength.toNat)
    (cut : x.truncatedAt = some r.entry) : x.reportAfter r = some ⟨r.slot, .cut⟩ := (if_neg notLast).trans (if_pos cut)

theorem Slot.reportAfter_none {x : Slot} {r : SweepRecord} (notLast : r.entry + 1 ≠ x.fields.scanLength.toNat)
    (uncut : x.truncatedAt ≠ some r.entry) : x.reportAfter r = none := (if_neg notLast).trans (if_neg uncut)

/-- Settles O48: the discarded records, then a sweep's by whether its entry is finished and what that ends. -/
theorem readout : Obligations.Readout := by
  intro s code extreme
  refine ⟨fun other => State.readout_discarded other none, fun r start a buffer adds => ?_⟩
  have added := accumulate_of adds
  intro x sample emptied
  have finishes : a.readouts = r.count → s.readout none = (emptied.deliver none sample, x.reportAfter r) :=
    fun finished => State.readout_finished buffer added finished none
  exact ⟨fun more => State.readout_unfinished buffer added more none,
    fun finished last => (finishes finished).trans (congrArg _ (Slot.reportAfter_last last)),
    fun finished notLast cut => (finishes finished).trans (congrArg _ (Slot.reportAfter_cut notLast cut)),
    fun finished notLast uncut => (finishes finished).trans (congrArg _ (Slot.reportAfter_none notLast uncut))⟩

/-! ### START_CONVERSION (R61, R62) -/

/-- The START of the selected record, in the words of the statement. -/
theorem State.startSelected_eq (s : State) (r : SweepRecord) :
    let begun : State := { (s.readout none).1 with seq := { (s.readout none).1.seq with
      selected := none, converting := some ⟨.sweep r, BitVec.ofNat 32 s.now⟩, doneTimeout := some (s.now + 20) } }
    s.startSelected r = (if s.seq.active = some ⟨r.slot, r.sweepIndex⟩ then begun.refill r else begun).handReport
      (s.readout none).2 := by
  intro begun
  have now := (s.kept_readout none).now
  have active : (s.readout none).1.seq.active = s.seq.active := by rw [s.seq_readout]
  have same : (((s.readout none).1.updSeq fun q => { q with selected := none }).beginConversion (.sweep r)) = begun := by
    dsimp only [begun]
    rw [← now]
    rfl
  have still : begun.seq.active = s.seq.active := active
  unfold State.startSelected
  dsimp only
  rw [same, still]

/-- Settles O46: the START is due, and the operand says when the waiting reports are taken. -/
theorem startConversion : Obligations.StartConversion := by
  intro r s selected resting settled
  have due : s.startDue = true := by
    simp only [State.startDue, selected, resting, Option.isSome_some, Option.isNone_none, Bool.true_and, decide_eq_true_eq]
    exact settled
  have starts : ∀ w, exec (.startConversion w) s = .next ((s.startSelected r).takeReportsWhen w) := fun w => by
    refine congrArg Host.Outcome.next ?_
    unfold State.startConversion
    rw [if_pos due, selected]
  intro read begun started handed
  have same : s.startSelected r = handed := s.startSelected_eq r
  exact ⟨(starts .later).trans (congrArg Host.Outcome.next same),
    (starts .atOnce).trans (congrArg (fun t => Host.Outcome.next (State.takeReports (fun _ => true) t)) same)⟩

/-! ### CONVERTER_DONE (R63, R73) -/

section
variable {s : State} (c : Option Port)

theorem State.flushOrIdle_flush (sweep : ∃ r start, s.seq.buffer = some ⟨.sweep r, start⟩) :
    s.flushOrIdle c = s.flushStarted c :=
  (if_pos ((Sequencer.bufferHoldsSweep_iff _).mpr sweep)).trans (s.flush_eq_flushStarted c :)

theorem State.flushOrIdle_idle {b : StartedRecord} (buffer : s.seq.buffer = some b) (other : ∀ r, b.tag ≠ .sweep r) :
    s.flushOrIdle c = { s with seq := { s.seq with buffer := some ⟨.stale, b.startTime⟩ } } := by
  have noSweep : ¬s.seq.bufferHoldsSweep = true := fun holds => by
    obtain ⟨r, start, sweep⟩ := (Sequencer.bufferHoldsSweep_iff _).mp holds
    exact other r (congrArg StartedRecord.tag (Option.some.inj (buffer.symm.trans sweep)))
  unfold State.flushOrIdle State.updSeq
  rw [if_neg noSweep]
  dsimp only
  rw [buffer]
  rfl

end

/-- `s` with the conversion ended: its record is in the buffer, with `raw` in the converter's (R57). -/
def State.conversionEnded (raw : Word) (b : StartedRecord) (s : State) : State :=
  { s with seq := { s.seq with buffer := some b, converting := none, doneTimeout := none, converterCode := raw } }

section
variable {s : State} {b : StartedRecord} (converting : s.seq.converting = some b) (raw : Word)
include converting

theorem State.endConversion_of (working : s.seq.link ≠ .restarting) : s.endConversion raw =
    if s.seq.selected.isNone then (s.conversionEnded raw b).flushOrIdle none else s.conversionEnded raw b := by
  have same : (s.updSeq fun q => { q with
      buffer := q.converting, converting := none, doneTimeout := none, converterCode := raw }) = s.conversionEnded raw b := by
    unfold State.updSeq State.conversionEnded
    dsimp only
    rw [converting]
  unfold State.endConversion
  rw [if_neg working]
  dsimp only
  rw [same]
  rfl

omit converting in
/-- In RESTARTING the end of the DUMMY is the end of a conversion of a READY link that has been announced (R73). -/
theorem State.endConversion_restarting (restarting : s.seq.link = .restarting) : s.endConversion raw =
    ({ s with seq := { s.seq with link := .ready } }.raiseAll .converterReady).endConversion raw := by
  have working : ({ s with seq := { s.seq with link := .ready } }.raiseAll .converterReady).seq.link ≠ .restarting := by
    rw [State.seq_raiseAll]
    exact nofun
  unfold State.endConversion
  rw [if_pos restarting, if_neg working]
  rfl

theorem exec_converterDone (w : ReportTaking) :
    exec (.converterDone ⟨raw, w⟩) s = .next ((s.endConversion raw).takeReportsWhen w) :=
  congrArg Host.Outcome.next (if_pos (Option.isSome_iff_exists.mpr ⟨b, converting⟩))

end

/-- Settles O49: a done that is ignored, then the end of the conversion by link, register and tag. -/
theorem converterDone : Obligations.ConverterDone := by
  refine ⟨fun raw w s resting => ?_, fun raw w b s converting => ?_⟩
  · refine congrArg Host.Outcome.next (if_neg ?_)
    rw [resting]
    exact Bool.false_ne_true
  · intro ended gives
    have ends : ∀ t, s.endConversion raw = t → gives t := fun t e => by
      subst e
      have done := exec_converterDone converting raw w
      exact ⟨fun later => by rw [done, later]; rfl, fun atOnce => by rw [done, atOnce]; rfl⟩
    refine ⟨fun working filled => ends _ ?_, fun working empty ⟨r, sweep⟩ => ends _ ?_, fun working empty other => ends _ ?_,
      fun restarting empty other => ends _ ?_⟩
    · refine (State.endConversion_of converting raw working).trans (if_neg ?_)
      rwa [Option.isNone_iff_eq_none]
    · refine (State.endConversion_of converting raw working).trans ((if_pos (by rw [empty]; rfl)).trans ?_)
      exact State.flushOrIdle_flush none ⟨r, b.startTime, congrArg some (by rw [← sweep])⟩
    · refine (State.endConversion_of converting raw working).trans ((if_pos (by rw [empty]; rfl)).trans ?_)
      exact State.flushOrIdle_idle none rfl other
    · let ready := { s with seq := { s.seq with link := .ready } }.raiseAll .converterReady
      have stillConverting : ready.seq.converting = some b := converting
      refine (State.endConversion_restarting raw restarting).trans
        ((State.endConversion_of stillConverting raw nofun).trans ((if_pos (by rw [State.seq_raiseAll, empty]; rfl)).trans ?_))
      exact State.flushOrIdle_idle none rfl other

/-! ### The converter fault (R69, R70) -/

theorem State.mem_inFlight (q : Sequencer) (i : SlotId) : i ∈ q.inFlight ↔
    (∃ r, placedSweep q.converting = some r ∧ r.slot = i) ∨ (∃ r, placedSweep q.buffer = some r ∧ r.slot = i) ∨
      (∃ r, q.selected = some r ∧ r.slot = i) ∨ ∃ a, q.active = some a ∧ a.slot = i := by
  unfold Sequencer.inFlight
  simp only [List.mem_eraseDups, List.mem_append, Option.mem_toList, Option.map_eq_some_iff, or_assoc]

theorem nodup_eraseDups (ids : List SlotId) : ids.eraseDups.Nodup := by
  match ids with
  | [] => exact List.nodup_nil
  | i :: rest =>
    rw [List.eraseDups_cons, List.nodup_cons, List.mem_eraseDups]
    exact ⟨fun again => by simpa using (List.mem_filter.mp again).2, nodup_eraseDups _⟩
termination_by ids.length
decreasing_by exact Nat.lt_succ_of_le (List.length_filter_le _ _)

/-- Settles O50: the requests in flight, each once and the converting one first, end after the fault is raised. -/
theorem converterFault : Obligations.ConverterFault := by
  intro b t s converting timeout reached ready
  refine ⟨s.seq.inFlight, nodup_eraseDups _, fun i => ?_, fun r sweep => ?_, ?_⟩
  · rw [State.mem_inFlight]
    refine or_congr (exists_congr fun r => and_congr_left fun _ => ?_) (or_congr ?_ Iff.rfl)
    · rw [converting, placedSweep_eq_some]
      obtain ⟨tag, time⟩ := b
      simp
    · refine exists_congr fun r => ?_
      rw [placedSweep_eq_some, exists_and_right]
  · have first : placedSweep s.seq.converting = some r := by
      rw [converting, placedSweep_eq_some]
      exact ⟨b.startTime, congrArg some (by rw [← sweep])⟩
    unfold Sequencer.inFlight
    rw [first]
    simp [List.eraseDups_cons]
  · have due : s.doneTimeoutDue = true := by
      simp only [State.doneTimeoutDue, converting, timeout, Option.isSome_some, Option.any_some, Bool.true_and,
        decide_eq_true_eq]
      exact reached
    refine congrArg Host.Outcome.next ?_
    unfold State.doneTimeout
    rw [if_pos due, ready]
    rfl

/-! ### RESTART_CONVERTER (R72, R73) -/

section
variable {s : State} {p : Port} (h : s.OpenAtCommand p)
include h

theorem exec_restartConverter_accepted (faulted : s.seq.link = .faulted) : exec (.restartConverter p) s =
    .next ({ s with seq := { s.seq with
      link := .restarting, buffer := none
      converting := some ⟨.dummy s.seq.selectedChannel, BitVec.ofNat 32 s.now⟩
      doneTimeout := some (s.now + 20) } }.answered p 23 23 .accepted) := by
  refine congrArg Host.Outcome.next (State.openCommand_answered (n := 23) h ?_)
  unfold State.restartConverter
  rw [State.seq_withCode, faulted]
  rfl

theorem exec_restartConverter_already (other : s.seq.link ≠ .faulted) :
    exec (.restartConverter p) s = .next (s.answered p 23 23 .already) := by
  refine congrArg Host.Outcome.next (State.openCommand_answered (n := 23) h ?_)
  unfold State.restartConverter
  rw [State.seq_withCode]
  cases link : s.seq.link with
  | faulted => exact absurd link other
  | ready => rfl
  | restarting => rfl

end

/-- Settles O51: the command by the link, and the done timeout in RESTARTING. -/
theorem restartConverter : Obligations.RestartConverter := by
  intro p s
  refine ⟨fun h faulted => ⟨23, exec_restartConverter_accepted h faulted⟩,
    fun h other => ⟨23, exec_restartConverter_already h other⟩, fun b t restarting converting timeout reached => ?_⟩
  have due : s.doneTimeoutDue = true := by
    simp only [State.doneTimeoutDue, converting, timeout, Option.isSome_some, Option.any_some, Bool.true_and,
      decide_eq_true_eq]
    exact reached
  refine congrArg Host.Outcome.next ?_
  unfold State.doneTimeout
  rw [if_pos due, restarting]
  rfl

end Sys2Proof.Machine
end

section
/-! SUPPORT. A step on an empty queue: the first waiting report, a microsecond, TIME_WRAP (R74, R79). -/
namespace Sys2Proof.Machine

theorem State.timestamp_passMicrosecond {s : State} (running : s.inReset = false) :
    s.passMicrosecond.timestamp = s.timestamp + 1 := by
  obtain ⟨ts, ps, eq, -, -⟩ := s.passMicrosecond_eq running
  rw [eq]
  exact BitVec.ofNat_add s.now 1

theorem State.tick_cal (s : State) : { s.cal with lease := s.cal.lease.tick } = if s.cal.lease.holder = none then s.cal else
    { s.cal with lease := { s.cal.lease with remaining := s.cal.lease.remaining - 1 } } := by
  obtain free | ⟨p, held⟩ := Option.eq_none_or_eq_some s.cal.lease.holder
  · rw [if_pos free, Lease.tick, if_neg (by simp [free])]
  · rw [if_neg (by simp [held]), Lease.tick, if_pos (by simp [held])]

theorem State.wrapDue_of {s : State} (running : s.inReset = false) : s.wrapDue = decide (s.timestamp = 4294967295) := by
  unfold State.wrapDue
  rw [running]
  exact Bool.beq_eq_decide_eq _ _

theorem step_of_report {s : State} {i : SlotId} {rest : List SlotId} (queue : s.pending = []) (running : s.inReset = false)
    (reports : s.seq.reports = i :: rest) :
    step s = .next ({ s with seq := { s.seq with reports := rest } }.takeReport (some ⟨i, .completed⟩)) := by
  have due : s.reportDue = true := by simp [State.reportDue, running, reports]
  rw [step_of_pending_nil queue, if_pos due]
  unfold State.takeFirstReport
  rw [reports]
  rfl

theorem step_of_idle {s : State} (queue : s.pending = []) (reports : s.seq.reports = []) (noEvent : s.dueEvent = none) :
    step s = .next s.passMicrosecond := by
  have notDue : ¬s.reportDue = true := by simp [State.reportDue, reports]
  rw [step_of_pending_nil queue, if_neg notDue, noEvent]
  rfl

/-- Settles O3: the waiting report, then the microsecond by `State.passMicrosecond_eq`, then TIME_WRAP. -/
theorem timePasses : Obligations.TimePasses := by
  refine ⟨fun i rest s => step_of_report, fun s queue reports noEvent running => ?_, fun s running => ⟨fun last => ?_,
    fun notLast => ?_⟩⟩
  · refine ⟨_, step_of_idle queue reports noEvent, ?_⟩
    obtain ⟨ts, ps, eq, timers, ports⟩ := s.passMicrosecond_eq running
    rw [eq]
    exact ⟨rfl, timers, ports, s.tick_cal, rfl, rfl, rfl, rfl, rfl, rfl, queue, running⟩
  · have due : s.wrapDue = true := (State.wrapDue_of running).trans (decide_eq_true last)
    refine ⟨congrArg Host.Outcome.next (if_pos due), ?_⟩
    rw [State.timestamp_passMicrosecond running, last]
    rfl
  · have notDue : ¬s.wrapDue = true := fun due => notLast (of_decide_eq_true ((State.wrapDue_of running).symm.trans due))
    exact congrArg Host.Outcome.next (if_neg notDue)

end Sys2Proof.Machine
end

section
/-! SUPPORT. The reads that capture (R75, R137, R140, R153): what a read frame returns after one. -/
namespace Sys2Proof.Machine

/-- The addresses whose read captures, by chapter 11's map. -/
theorem capturesAt_iff (a : BitVec 12) : capturesAt a = true ↔ a.toNat = 0x01D ∨ a.toNat = 0xA02 ∨
    (0x100 ≤ a.toNat ∧ a.toNat ≤ 0x1FF ∧ 22 ≤ a.toNat % 32 ∧ a.toNat % 2 = 0) ∨
    (0x240 ≤ a.toNat ∧ a.toNat ≤ 0x2BF ∧ a.toNat % 8 = 0) ∨ (0x400 ≤ a.toNat ∧ a.toNat ≤ 0x7FF ∧ a.toNat % 8 = 0) := by
  simp only [capturesAt, Bool.or_eq_true, Bool.and_eq_true, beq_iff_eq, decide_eq_true_eq]
  omega

theorem comesTo_of {current a : BitVec 12}
    (between : ∀ k, k < (a - current).toNat → capturesAt (current + BitVec.ofNat 12 k) = false) : comesTo current a = true := by
  simp only [comesTo, List.all_eq_true, List.mem_range]
  exact fun k inside => by rw [between k inside]; rfl

section
variable {s u : State} {p : Port} {f₀ f : Frame} {a b : BitVec 12} {rest : List (BitVec 12)}

theorem State.captureRead_of (frame : (s.port p).frame = some f₀) (read : f₀.write = false) (heeded : f₀.ignored = false)
    (comes : comesTo f₀.address a = true) : s.captureRead p a rest =
      s.updPort p fun ps => { ps with frame := some (f₀.capture a (s.captureWords p rest)) } := by
  unfold State.captureRead
  rw [frame]
  dsimp only
  rw [read, heeded, comes]
  rfl

theorem State.readWord_of_frame (frame : (u.port p).frame = some f) (high : (u.port p).lineLow = false)
    (heeded : f.ignored = false) (b : BitVec 12) : u.readWord p b =
      ((f.captures.find? fun c => c.address == b).map Capture.word).getD (u.windowWord p b) := by
  unfold State.readWord PortState.captured
  rw [high, frame, if_neg (by simp [heeded])]

/-- A word that the read captures is found as it stood. -/
theorem Frame.find_capture_mem (inside : b ∈ rest) : ((f₀.capture a (s.captureWords p rest)).captures.find?
    fun c => c.address == b).map Capture.word = some (s.windowWord p b) := by
  have found : ((s.captureWords p rest).find? fun c => c.address == b).map Capture.word = some (s.windowWord p b) := by
    induction rest with
    | nil => cases inside
    | cons d rest ih =>
      by_cases same : d = b
      · simp [State.captureWords, same]
      · have later : b ∈ rest := (List.mem_cons.mp inside).resolve_left (Ne.symm same)
        rw [State.captureWords, List.map_cons, List.find?_cons_of_neg (by simpa using same)]
        exact ih later
  obtain ⟨c, first, word⟩ := Option.map_eq_some_iff.mp found
  rw [Frame.capture, List.find?_append, first]
  exact congrArg some word

/-- For another address the frame holds what it held. -/
theorem Frame.find_capture_not_mem (outside : b ∉ rest) : (f₀.capture a (s.captureWords p rest)).captures.find?
    (fun c => c.address == b) = f₀.captures.find? fun c => c.address == b := by
  have unfound : (s.captureWords p rest).find? (fun c => c.address == b) = none := by
    simp only [State.captureWords, List.find?_map, Option.map_eq_none_iff, List.find?_eq_none]
    exact fun d inside same => outside (eq_of_beq same ▸ inside)
  rw [Frame.capture, List.find?_append, unfound, Option.none_or, List.find?_filter]
  refine congrArg (fun q => f₀.captures.find? q) (funext fun c => ?_)
  by_cases here : c.address = b
  · have kept : ∀ d ∈ s.captureWords p rest, ¬d.address = b := fun d held same =>
      by simpa [same] using List.find?_eq_none.mp unfound d held
    simpa [here] using kept
  · simp [here]

end

/-- What O12 says of a read of `a` that captures the words at `rest`. -/
theorem exec_captureRead {c : Instr} {p : Port} {s : State} {a : BitVec 12} {rest rest' : List (BitVec 12)} {f₀ : Frame}
    (runs : exec c s = .next (s.captureRead p a rest)) (same : rest = rest') (frame : (s.port p).frame = some f₀)
    (read : f₀.write = false) (heeded : f₀.ignored = false)
    (between : ∀ k, k < (a - f₀.address).toNat → ¬capturesAt (f₀.address + BitVec.ofNat 12 k) = true) :
    ∃ f : Frame, f.write = false ∧ f.ignored = false ∧ f.address = a + 1 ∧
      exec c s = .next (s.updPort p fun ps => { ps with frame := some f }) ∧
      ∀ u : State, (u.port p).frame = some f → (u.port p).lineLow = false →
        (∀ b ∈ rest', u.readWord p b = s.windowWord p b) ∧
        ∀ b, b ∉ rest' →
          (∀ x, f₀.captures.find? (fun x => x.address == b) = some x → u.readWord p b = x.word) ∧
          (f₀.captures.find? (fun x => x.address == b) = none → u.readWord p b = u.windowWord p b) := by
  subst same
  have comes : comesTo f₀.address a = true := comesTo_of fun k inside => Bool.eq_false_iff.mpr (between k inside)
  refine ⟨f₀.capture a (s.captureWords p rest), read, heeded, rfl,
    runs.trans (congrArg _ (State.captureRead_of frame read heeded comes)), fun u now high => ?_⟩
  have reads := State.readWord_of_frame now high heeded
  refine ⟨fun b inside => ?_, fun b outside => ⟨fun x held => ?_, fun unheld => ?_⟩⟩
  · rw [reads, Frame.find_capture_mem inside, Option.getD_some]
  · rw [reads, Frame.find_capture_not_mem outside, held]
    rfl
  · rw [reads, Frame.find_capture_not_mem outside, unheld]
    rfl

/-- The words after a record's first, by their addresses. -/
theorem restAddresses (base n : Nat) : ((List.range n).map fun k => BitVec.ofNat 12 base + BitVec.ofNat 12 (k + 1)) =
    (List.range' 1 n).map fun k => BitVec.ofNat 12 (base + k) := by
  rw [List.range_eq_range', List.range'_eq_map_range (s := 1), List.map_map, List.range_eq_range']
  exact List.map_congr_left fun k _ => by
    rw [Function.comp_apply, Nat.add_comm 1 k, BitVec.ofNat_add base]

/-- Settles O12: each read is `State.captureRead` of its address. -/
theorem capturingReads : Obligations.CapturingReads := by
  intro p s capturing captures
  have captures_of : ∀ c a rest rest', exec c s = .next (s.captureRead p a rest) → rest = rest' → captures c a rest' :=
    fun c a rest rest' runs same f₀ frame read heeded between =>
      exec_captureRead runs same frame read heeded fun k inside at_k => between k inside ((capturesAt_iff _).mp at_k)
  refine ⟨captures_of _ _ _ _ rfl rfl, captures_of _ _ _ _ rfl rfl, fun i k => ?_,
    fun i => captures_of _ _ _ _ rfl (restAddresses _ 6), fun i => captures_of _ _ _ _ rfl (restAddresses _ 6),
    fun n => captures_of _ _ _ _ rfl (restAddresses _ 5)⟩
  have low : counterAddress i k = BitVec.ofNat 12 (0x116 + 32 * i.val + 2 * k.val) := congrArg (BitVec.ofNat 12) (by omega)
  have high : counterAddress i k + 1 = BitVec.ofNat 12 (0x117 + 32 * i.val + 2 * k.val) :=
    (BitVec.ofNat_add _ 1).symm.trans (congrArg (BitVec.ofNat 12) (by omega))
  rw [← low, ← high]
  exact captures_of _ _ _ _ rfl rfl

end Sys2Proof.Machine
end

section
/-! SUPPORT. CLOSE and the conversion chain (R68, R81, R88): records, cuts and waiting reports before and after the pipeline. -/
namespace Sys2Proof.Machine

/-! ### The reports that wait, and the cuts -/

section
variable {s : State} {i : SlotId}

theorem State.reports_endPosting (s : State) (i : SlotId) (o : EndOutcome) :
    (s.endPosting i (some o)).seq.reports = s.seq.reports := by
  by_cases idle : (s.slot i).state = .idle
  · rw [State.endPosting_none_idle idle]
  · rw [State.seq_endPosting idle]

theorem State.seq_makeDue_singleton (s : State) (i : SlotId) : (s.makeDue [i]).seq = s.seq := by
  obtain ⟨v, due, -⟩ := s.makeDue_eq (List.nodup_cons.mpr ⟨List.not_mem_nil, List.nodup_nil⟩)
  rw [due]

/-- The Request Table's taking of a completion makes no report (R13, R14). -/
theorem State.reports_completeSweep (s : State) (i : SlotId) : (s.completeSweep i).seq.reports = s.seq.reports := by
  unfold State.completeSweep
  split
  · dsimp only
    split
    · exact State.reports_endPosting _ i .completed
    · split
      · exact congrArg Sequencer.reports (State.seq_makeDue_singleton _ i)
      · split
        · exact congrArg Sequencer.reports (State.seq_makeDue_singleton _ i)
        · rfl
  · exact State.reports_endPosting _ i _
  all_goals rfl

theorem State.reports_takeReports (s : State) (which : SlotId → Bool) :
    (s.takeReports which).seq.reports = s.seq.reports.filter fun i => !which i :=
  List.foldlRecOn (motive := fun t : State => t.seq.reports = s.seq.reports.filter fun i => !which i) _ _ rfl
    fun t waiting i _ => (t.reports_completeSweep i).trans waiting

theorem State.seq_endPosting_none (active : (s.slot i).state ≠ .idle) :
    (s.endPosting i none).seq = { s.seq with cuts := s.seq.cuts.filter (· != i) } := by
  obtain ⟨ts, timers⟩ := (s.updSlot i Slot.ended).dropTimerRef_eq (s.slot i).fields
  rw [State.endPosting_none active, State.seq_updPort, State.postingDropped, timers]
  rfl

/-- The endings of postings drop the cuts handed over for those of them that were not IDLE (18.md). -/
theorem State.seq_endPostings {l : List SlotId} (distinct : l.Nodup) (s : State) :
    (l.foldl (fun s i => s.endPosting i none) s).seq =
      { s.seq with cuts := s.seq.cuts.filter fun j => decide (j ∉ l) || (s.slot j).state == .idle } := by
  induction l generalizing s with
  | nil =>
    refine congrArg (fun cuts => { s.seq with cuts := cuts }) (List.filter_eq_self.mpr fun j _ => ?_).symm
    exact (Bool.or_eq_true _ _).mpr (.inl (decide_eq_true List.not_mem_nil))
  | cons i l ih =>
    obtain ⟨new, rest⟩ := List.nodup_cons.mp distinct
    rw [List.foldl_cons, ih rest]
    by_cases idle : (s.slot i).state = .idle
    · rw [State.endPosting_none_idle idle]
      refine congrArg (fun cuts => { s.seq with cuts := cuts }) (List.filter_congr fun j _ => ?_)
      by_cases at_i : j = i
      · subst at_i
        simp [idle]
      · simp [at_i]
    · rw [State.seq_endPosting_none idle, List.filter_filter]
      refine congrArg (fun cuts => { s.seq with cuts := cuts }) (List.filter_congr fun j _ => ?_)
      rw [State.slot_endPosting_none]
      by_cases at_i : j = i
      · subst at_i
        simp [idle]
      · simp [at_i]

end

/-! ### The sequencer before the pipeline -/

section
variable (s : State) (p : Port)

/-- Whether a cut handed over for slot `i` stays at a CLOSE of the port: it is not for a posting of the port. -/
def State.cutStays (i : SlotId) : Bool := slotOwner i != p || ((s.takePortReports p).slot i).state == .idle

/-- The sequencer when a CLOSE comes to the pipeline: cuts and waiting reports of the port's postings are gone (R88, 18.md). -/
theorem State.seq_settled : (s.settled p).seq = { s.seq with
    cuts := (s.takePortReports p).seq.cuts.filter (s.cutStays p)
    reports := s.seq.reports.filter fun i => slotOwner i != p } := by
  have reports : (s.takePortReports p).seq.reports = s.seq.reports.filter fun i => slotOwner i != p :=
    s.reports_takeReports _
  have stays : (fun j => decide (j ∉ portSlots p) || ((s.takePortReports p).slot j).state == .idle) = s.cutStays p := by
    funext j
    refine congrArg (· || ((s.takePortReports p).slot j).state == .idle) ?_
    rw [Bool.eq_iff_iff, decide_eq_true_eq, bne_iff_ne, mem_portSlots]
  obtain ⟨cuts, taken, seq⟩ := (State.OffPort.takePortReports s p).seq
  unfold State.settled State.endPortPostings
  rw [State.seq_endPostings (nodup_portSlots p), stays, ← reports, seq]

end

/-! ### The pipeline (R63, R68) -/

theorem staleIfOwned_sweep (p : Port) (r : SweepRecord) (start : DWord) :
    staleIfOwned p (some ⟨.sweep r, start⟩) = some ⟨if slotOwner r.slot = p then .stale else .sweep r, start⟩ := by
  by_cases own : slotOwner r.slot = p <;> simp [staleIfOwned, RecordTag.sweepRecord?, own]

theorem staleIfOwned_other (p : Port) {b : StartedRecord} (other : ∀ r, b.tag ≠ .sweep r) :
    staleIfOwned p (some b) = some b := by
  obtain ⟨tag, start⟩ := b
  cases tag with
  | sweep r => exact absurd rfl (other r)
  | flush _ => rfl
  | dummy _ => rfl
  | stale => rfl

/-- A report to the Request Table leaves the sequencer, but for the cuts and the reports that wait. -/
theorem State.chainSame_handReport (s : State) (r : Option Report) : s.seq.ChainSame (s.handReport r).seq := by
  unfold State.handReport
  split
  · exact .refl _
  · next x =>
    split
    · exact ⟨_, _, rfl⟩
    · exact ⟨_, _, s.seq_cutSweep x.slot⟩

/-- A report drops the same cuts, and waits alike, in two states whose cuts and waiting reports differ by the cuts that do
not stay (R81). -/
theorem State.handReport_filtered {s t : State} {report : Option Report} {stays : SlotId → Bool}
    (slot : ∀ x, report = some x → t.slot x.slot = s.slot x.slot) (cuts : t.seq.cuts = s.seq.cuts.filter stays)
    (reports : t.seq.reports = s.seq.reports) :
    (t.handReport report).seq.cuts = (s.handReport report).seq.cuts.filter stays ∧
      (t.handReport report).seq.reports = (s.handReport report).seq.reports := by
  unfold State.handReport
  split
  · exact ⟨cuts, reports⟩
  · next x =>
    split
    · exact ⟨cuts, congrArg (· ++ [x.slot]) reports⟩
    · unfold State.cutSweep
      rw [slot x rfl]
      split
      · next d draining =>
        have active : (s.slot x.slot).state ≠ .idle := by rw [draining]; nofun
        have active' : (t.slot x.slot).state ≠ .idle := slot x rfl ▸ active
        rw [State.seq_endPosting active, State.seq_endPosting active']
        refine ⟨?_, reports⟩
        rw [cuts, List.filter_filter, List.filter_filter]
        exact List.filter_congr fun j _ => Bool.and_comm _ _
      all_goals exact ⟨cuts, reports⟩

/-- What a readout leaves in the accumulator does not hang on the ports (R66). -/
theorem State.accumulator_readout {s t : State} {r : SweepRecord} {start : DWord}
    (buffer : s.seq.buffer = some ⟨.sweep r, start⟩) (buffer' : t.seq.buffer = some ⟨.sweep r, start⟩)
    (code : t.seq.converterCode = s.seq.converterCode) (accumulator : t.seq.accumulator = s.seq.accumulator)
    (c d : Option Port) : (t.readout d).1.seq.accumulator = (s.readout c).1.seq.accumulator := by
  rw [State.readout_sweep buffer, State.readout_sweep buffer']
  unfold State.readSweep
  rw [State.seq_updSeq, State.seq_updSeq, code, accumulator]
  cases accumulate r start s.seq.converterCode s.seq.accumulator with
  | none => exact accumulator
  | some a =>
    dsimp only
    split
    · rw [State.seq_deliver, State.seq_deliver]
      rfl
    · rfl

/-- A FLUSH of another port's record, started in `t`, against the readout of the record in `s`: `t` is `s` but for the closing
port and the cuts that do not stay. -/
theorem State.Alike.seq_flushStarted {p : Port} {s t : State} (h : State.Alike p (· ≠ p) s t) {r : SweepRecord} {start : DWord}
    (buffer : s.seq.buffer = some ⟨.sweep r, start⟩) (buffer' : t.seq.buffer = some ⟨.sweep r, start⟩)
    (code : t.seq.converterCode = s.seq.converterCode) (accumulator : t.seq.accumulator = s.seq.accumulator)
    (other : slotOwner r.slot ≠ p) {c : Option Port} (closing : c = none ∨ c = some p) {stays : SlotId → Bool}
    (cuts : t.seq.cuts = s.seq.cuts.filter stays) (reports : t.seq.reports = s.seq.reports) :
    let flushed := (s.readout none).1.handReport (s.readout none).2
    (t.flushStarted c).seq = { t.seq with
      converting := some ⟨.flush t.seq.selectedChannel, BitVec.ofNat 32 t.now⟩, doneTimeout := some (t.now + 20)
      buffer := none, accumulator := flushed.seq.accumulator, cuts := flushed.seq.cuts.filter stays
      reports := flushed.seq.reports } := by
  intro flushed
  let started : State := { (t.readout c).1 with seq := { (t.readout c).1.seq with
    converting := some ⟨.flush t.seq.selectedChannel, BitVec.ofNat 32 t.now⟩, doneTimeout := some (t.now + 20) } }
  obtain ⟨read, report⟩ := h.readout buffer buffer' code accumulator other other (c := none) (d := c) fun q hq => by
    obtain rfl | rfl := closing
    · rfl
    · simp [hq.symm]
  have startedSeq : started.seq = { t.seq with
      converting := some ⟨.flush t.seq.selectedChannel, BitVec.ofNat 32 t.now⟩, doneTimeout := some (t.now + 20)
      buffer := none, accumulator := (s.readout none).1.seq.accumulator } := by
    dsimp only [started]
    rw [State.seq_readout, State.accumulator_readout buffer buffer' code accumulator none c]
  have begun : (t.flushStarted c).seq = (started.handReport (s.readout none).2).seq := report ▸ rfl
  obtain ⟨dropped, waiting⟩ : (started.handReport (s.readout none).2).seq.cuts = flushed.seq.cuts.filter stays ∧
      (started.handReport (s.readout none).2).seq.reports = flushed.seq.reports := by
    refine State.handReport_filtered (fun x made => ?_) ?_ ?_
    · rw [State.slot_report buffer made]
      exact read.slot r.slot other
    · rw [startedSeq, State.seq_readout]
      exact cuts
    · rw [startedSeq, State.seq_readout]
      exact reports
  obtain ⟨_, _, handed⟩ := (s.readout none).1.chainSame_handReport (s.readout none).2
  have summed : flushed.seq.accumulator = (s.readout none).1.seq.accumulator := by
    have same := congrArg Sequencer.accumulator handed
    exact same
  obtain ⟨_, _, begins⟩ := started.chainSame_handReport (s.readout none).2
  rw [begins] at dropped waiting
  rw [begun, begins, startedSeq, ← dropped, ← waiting, summed]

section
variable (s : State) (p : Port)

/-- A CLOSE that starts no FLUSH retags the records; if its removal leaves nothing converting, it makes any other record in
the buffer STALE (R63, R68). -/
theorem State.seq_leaving_noFlush (noFlush : s.ClosesWithoutFlush p) : ∃ b,
    (s.leaving p).seq = { (s.settled p).seq.retag p with buffer := b } ∧
    (¬s.SelectedOf p ∨ s.seq.converting ≠ none → b = staleIfOwned p s.seq.buffer) ∧
    (s.SelectedOf p → s.seq.converting = none →
      b = (staleIfOwned p s.seq.buffer).map (fun x => ⟨.stale, x.startTime⟩) ∧
      ∀ r start, s.seq.buffer = some ⟨.sweep r, start⟩ → slotOwner r.slot = p) := by
  obtain ⟨cuts, reports, seq⟩ := (s.offPort_settled p).seq
  have selectedOf : (s.settled p).SelectedOf p ↔ s.SelectedOf p := by
    unfold State.SelectedOf
    rw [seq]
  have converting : (s.settled p).seq.converting = s.seq.converting := by rw [seq]
  have buffer : (s.settled p).seq.buffer = s.seq.buffer := by rw [seq]
  by_cases both : s.SelectedOf p ∧ s.seq.converting = none
  · obtain ⟨removed, resting⟩ := both
    have owned : ∀ r start, s.seq.buffer = some ⟨.sweep r, start⟩ → slotOwner r.slot = p := by
      obtain kept | converts | owned := noFlush
      · exact absurd removed kept
      · exact absurd resting converts
      · exact owned
    refine ⟨_, ?_, fun either => ?_, fun _ _ => ⟨rfl, owned⟩⟩
    · have noSweep : ¬∃ r start, ((s.settled p).updSeq (Sequencer.retag p)).seq.buffer = some ⟨.sweep r, start⟩ := by
        rintro ⟨r, start, still⟩
        obtain ⟨was, other⟩ := (staleIfOwned_sweep_iff p _ r start).mp still
        exact other (owned r start (buffer ▸ was))
      rw [State.leaving_eq, State.leavePipeline, if_pos (((s.settled p).selectedOf_iff p).mpr (selectedOf.mpr removed)),
        State.afterRemoval_idle _ (Sequencer.selected_retag (selectedOf.mpr removed))
          ((staleIfOwned_eq_none_iff p _).mpr (converting.trans resting)) noSweep, ← buffer]
      rfl
    · exact absurd either (not_or.mpr ⟨not_not_intro removed, not_not_intro resting⟩)
  · refine ⟨_, ?_, fun _ => rfl, fun removed resting => absurd ⟨removed, resting⟩ both⟩
    have unchanged : (s.leaving p).seq = (s.settled p).seq.retag p := by
      rw [State.leaving_eq, State.leavePipeline]
      split
      · next removed =>
        have busy : s.seq.converting ≠ none := fun resting =>
          both ⟨selectedOf.mp (((s.settled p).selectedOf_iff p).mp removed), resting⟩
        rw [State.afterRemoval_converting _ fun gone =>
          busy (converting.symm.trans ((staleIfOwned_eq_none_iff p _).mp gone))]
        rfl
      · rfl
    rw [unchanged, ← buffer]
    rfl

/-- A CLOSE that starts a FLUSH: the chain is that of the waiting record's readout, with the FLUSH converting (R63). -/
theorem State.seq_leaving_flush (flushes : ¬s.ClosesWithoutFlush p) :
    let waiting := (s.takePortReports p).withoutEntry p
    let flushed := (waiting.readout none).1.handReport (waiting.readout none).2
    ∃ r start, s.seq.buffer = some ⟨.sweep r, start⟩ ∧
      (s.leaving p).seq = { s.seq.retag p with
        converting := some ⟨.flush s.seq.selectedChannel, BitVec.ofNat 32 s.now⟩, doneTimeout := some (s.now + 20)
        buffer := none, accumulator := flushed.seq.accumulator, cuts := flushed.seq.cuts.filter (s.cutStays p)
        reports := flushed.seq.reports } ∧
      (s.leaving p).slot r.slot = flushed.slot r.slot := by
  intro waiting flushed
  obtain ⟨noFlush, -⟩ | ⟨-, r, start, c, was, buffer, other, closing, e⟩ := s.leaving_cases p
  · exact absurd noFlush flushes
  refine ⟨r, start, was, ?_, (s.leaving_others p was buffer other closing e).slot r.slot other⟩
  obtain ⟨code, accumulator⟩ := s.seq_settled_retag p
  have before : waiting.seq.buffer = some ⟨.sweep r, start⟩ := (s.buffer_takePortReports p).trans was
  have settled : ((s.settled p).updSeq (Sequencer.retag p)).seq = _ := congrArg (Sequencer.retag p) (s.seq_settled p)
  have cuts : ((s.settled p).updSeq (Sequencer.retag p)).seq.cuts = waiting.seq.cuts.filter (s.cutStays p) := by
    rw [settled]
    rfl
  have reports : ((s.settled p).updSeq (Sequencer.retag p)).seq.reports = waiting.seq.reports := by
    rw [settled]
    exact (s.reports_takeReports _).symm
  have now : ((s.settled p).updSeq (Sequencer.retag p)).now = s.now := (s.kept_settled p).now
  rw [e, State.seq_countFree,
    (s.alike_settled p).seq_flushStarted before buffer code accumulator other closing cuts reports, now, settled]
  rfl

/-- What every CLOSE leaves of the chain: the selected record and the active sweep of other ports, the link, the channel, the
settled time and the converter's code (R68). -/
theorem State.seq_leaving : ∃ converting doneTimeout buffer accumulator cuts reports,
    (s.leaving p).seq = { s.seq.retag p with
      converting := converting, doneTimeout := doneTimeout, buffer := buffer, accumulator := accumulator
      cuts := cuts, reports := reports } := by
  by_cases noFlush : s.ClosesWithoutFlush p
  · obtain ⟨b, left, -⟩ := s.seq_leaving_noFlush p noFlush
    rw [left, s.seq_settled p]
    exact ⟨_, _, _, _, _, _, rfl⟩
  · obtain ⟨r, start, -, left, -⟩ := s.seq_leaving_flush p noFlush
    exact ⟨_, _, _, _, _, _, left⟩

theorem State.seq_closeEffects : (s.closeEffects p).seq = (s.leaving p).seq := by
  obtain ⟨ts, c, k, e⟩ := s.closeEffects_eq_leaving p
  rw [e]
  rfl

end

/-- Settles O19: what every CLOSE leaves, then a CLOSE without a FLUSH, then one with a FLUSH. -/
theorem closeRetagsRecords : Obligations.CloseRetagsRecords := by
  refine ⟨fun p s h => ⟨2, exec_closePort h⟩, fun p s _ => ?_⟩
  intro t u accumulator stays
  have seq : t.seq = (s.leaving p).seq := s.seq_closeEffects p
  obtain ⟨converting, doneTimeout, buffer, acc, cuts, reports, left⟩ := s.seq_leaving p
  refine ⟨fun r selected => ?_, fun unselected => ?_, fun a active => ?_, fun inactive => ?_, ?_, ?_, ?_, ?_, fun noFlush => ?_,
    fun flushes => ?_⟩
  · rw [seq, left]
    by_cases own : slotOwner r.slot = p <;> simp [Sequencer.retag, selected, own]
  · rw [seq, left]
    simp [Sequencer.retag, unselected]
  · rw [seq, left]
    by_cases own : slotOwner a.slot = p <;> simp [Sequencer.retag, active, own]
  · rw [seq, left]
    simp [Sequencer.retag, inactive]
  · rw [seq, left]; rfl
  · rw [seq, left]; rfl
  · rw [seq, left]; rfl
  · rw [seq, left]; rfl
  · obtain ⟨b, left, kept, emptied⟩ := s.seq_leaving_noFlush p noFlush
    rw [s.seq_settled p] at left
    rw [seq, left]
    refine ⟨rfl, rfl, rfl, rfl, fun r start converts => ?_, fun x converts other => ?_, fun rests => ?_,
      fun r start waits => ?_, fun x waits other => ⟨fun removed resting => ?_, fun either => ?_⟩, fun empty => ?_⟩
    · exact (congrArg (staleIfOwned p) converts).trans (staleIfOwned_sweep p r start)
    · exact (congrArg (staleIfOwned p) converts).trans (staleIfOwned_other p other)
    · exact congrArg (staleIfOwned p) rests
    · by_cases both : s.SelectedOf p ∧ s.seq.converting = none
      · obtain ⟨stale, owned⟩ := emptied both.1 both.2
        rw [stale, waits, staleIfOwned_sweep, if_pos (owned r start waits)]
        rfl
      · rw [kept (Classical.not_and_iff_not_or_not.mp both), waits, staleIfOwned_sweep]
    · obtain ⟨stale, -⟩ := emptied removed resting
      rw [stale, waits, staleIfOwned_other p other]
      rfl
    · rw [kept either, waits, staleIfOwned_other p other]
    · by_cases both : s.SelectedOf p ∧ s.seq.converting = none
      · obtain ⟨stale, -⟩ := emptied both.1 both.2
        rw [stale, empty]
        rfl
      · rw [kept (Classical.not_and_iff_not_or_not.mp both), empty]
        rfl
  · intro waiting flushed
    have without : waiting = (s.takePortReports p).withoutEntry p := by
      have entry : (s.takePortReports p).seq.accumulator = s.seq.accumulator := by
        obtain ⟨_, _, taken⟩ := (State.OffPort.takePortReports s p).seq
        rw [taken]
      unfold State.withoutEntry
      rw [entry]
      rfl
    obtain ⟨r, start, was, left, slot⟩ := s.seq_leaving_flush p flushes
    rw [← without] at left slot
    rw [seq, left]
    refine ⟨rfl, rfl, rfl, rfl, rfl, rfl, fun r' start' waits => ?_⟩
    obtain ⟨rfl, rfl⟩ : r = r' ∧ start = start' := by simpa using was.symm.trans waits
    exact congrArg (fun x : Slot => x.counters.entriesProduced) ((s.slot_closeEffects p r.slot).trans slot)

end Sys2Proof.Machine
end
